-- ==== Sys2Proof/Word.lean ====
section
/-! DEFINITION. The two word types of HSEC3: the byte of a spare record (R15) and the 32-bit value
that `RegRead` and `RegWrite` move (R23). -/

namespace Sys2Proof

/-- A byte is 8 bits (R15). -/
abbrev Byte := BitVec 8

/-- The 32-bit value of a register access and of a command word (R23, R90). -/
abbrev Word := BitVec 32

end Sys2Proof
end

