-- ==== Sys2Proof/Syntax.lean ====
section
/-! DEFINITION. The eleven commands of HSEC3 (R92). A command word carries no operand (R90): every
operand comes from a register (R94), so every constructor is bare. -/

namespace Sys2Proof

/-- One constructor for each row of the opcode map of R92. -/
inductive Instr where
  /-- `ECCDEC`: the checksum byte of a data pair (R113). -/
  | eccdec
  /-- `ECCCOR`: compare a stored and a computed checksum and correct the data pair (R115). -/
  | ecccor
  /-- `ECCFIX`: decode, then correct, on a 3-byte protected field (R116). -/
  | eccfix
  /-- `PARSE`: classify one spare buffer (R142). -/
  | parse
  /-- `LOADSP`: read the two spare records of block `BLKIDX` (R161). -/
  | loadsp
  /-- `BLKCLAIM`: parse both buffers, reconcile, validate, claim (R164). -/
  | blkclaim
  /-- `BLKSCAN`: `LOADSP` then `BLKCLAIM` for block `BLKIDX` (R165). -/
  | blkscan
  /-- `SRCSCAN`: `BLKSCAN` for every block of the current source (R168). -/
  | srcscan
  /-- `MAPINIT`: latch N and make every slot unmapped (R200). -/
  | mapinit
  /-- `MAPGET`: read one slot (R201). -/
  | mapget
  /-- `SRST`: reset the block (R202). -/
  | srst
deriving DecidableEq, Repr

end Sys2Proof
end

