-- ==== Sys2Proof/Decode.lean ====
section
/-! DEFINITION. Reading a command word (R90, R92, R96), writing one, and the opcode table's view of both.
The decoder is total: a word that is no command is rejected by the name of the field that is wrong. -/

namespace Sys2Proof

/-- Why a word is no command (R96). Either way the block answers `CmdError(ILLEGAL)`. -/
inductive DecodeError where
  /-- Bits 31:8, `RSV`, are not all 0. -/
  | reservedBits
  /-- `OPC` is none of the eleven opcodes. -/
  | unknownOpcode
deriving DecidableEq, Repr

/-- The field `OPC`, bits 7:0 of a command word (R90). -/
def opcodeField (w : Word) : Byte := w.extractLsb' 0 8

/-- The field `RSV`, bits 31:8 of a command word (R90). -/
def reservedField (w : Word) : BitVec 24 := w.extractLsb' 8 24

/-- The opcode map of R92, read from the opcode. -/
def commandOfOpcode (opc : Byte) : Option Instr :=
  if opc = 0x01#8 then some .eccdec
  else if opc = 0x02#8 then some .ecccor
  else if opc = 0x03#8 then some .eccfix
  else if opc = 0x10#8 then some .parse
  else if opc = 0x20#8 then some .loadsp
  else if opc = 0x21#8 then some .blkclaim
  else if opc = 0x22#8 then some .blkscan
  else if opc = 0x23#8 then some .srcscan
  else if opc = 0x30#8 then some .mapinit
  else if opc = 0x31#8 then some .mapget
  else if opc = 0x7F#8 then some .srst
  else none

/-- The command a 32-bit word encodes (R90, R92), or why it is illegal (R96). -/
def decode (w : Word) : Except DecodeError Instr :=
  if reservedField w = 0#24 then
    match commandOfOpcode (opcodeField w) with
    | some i => .ok i
    | none => .error .unknownOpcode
  else .error .reservedBits

/-- The opcode of a command, as the map of R92 lists it. -/
def opcode : Instr → Byte
  | .eccdec => 0x01#8
  | .ecccor => 0x02#8
  | .eccfix => 0x03#8
  | .parse => 0x10#8
  | .loadsp => 0x20#8
  | .blkclaim => 0x21#8
  | .blkscan => 0x22#8
  | .srcscan => 0x23#8
  | .mapinit => 0x30#8
  | .mapget => 0x31#8
  | .srst => 0x7F#8

/-- The word of a command: `OPC` below, `RSV` zero (R90, format N). -/
def encode (i : Instr) : Word := (0#24 ++ opcode i : BitVec (24 + 8))

/-- The number that the opcode table's bits name: `nbits` bits of `w`, every higher bit 0. -/
def tableNumber (nbits w : Nat) : Nat := w % 2 ^ nbits

/-- What the decoder reads from a table row's bits. A command is one 32-bit word that the register interface
moves whole, so it has no byte order (R67); a longer number is no command. -/
def decodeTableWord (nbits w : Nat) : Option Instr :=
  if tableNumber nbits w < 2 ^ 32 then
    match decode (BitVec.ofNat 32 (tableNumber nbits w)) with
    | .ok i => some i
    | .error _ => none
  else none

end Sys2Proof
end

