-- ==== Sys2Proof/Config.lean ====
section
/-! DEFINITION. What an implementation of HSEC3 fixes (R13, U1, U13): the ECC table and the largest map.
Both are plain data that every state carries and no step changes, so a statement about every state is a
statement about every table and every `MAP_MAX`. The defaults, and the
properties P1 to P3 that claims assume of a table, stand in Machine/EccTable.lean. -/

namespace Sys2Proof

/-- The two parameters of R13 that a model takes as arguments. -/
structure Config where
  /-- `ECC_TABLE`, 256 values of 7 bits indexed by a byte (R110, U1). -/
  eccTable : Vector (BitVec 7) 256
  /-- `MAP_MAX`, the largest legal N (R13, U13). -/
  mapMax : Nat
deriving DecidableEq, Repr

end Sys2Proof
end

