-- ==== Sys2Proof/Machine/EccTable.lean ====
section
/-! DEFINITION. The ECC table: reading it, the formula of R110, the properties P1 to P3 of R111, and the default
parameters, that table and `MAP_MAX` 65536 (R13, D12, D26). -/

namespace Sys2Proof

/-- `T[x]`: the entry of the table for the byte `x` (R110). -/
def Config.ecc (c : Config) (x : Byte) : BitVec 7 := c.eccTable[x.toNat]'x.isLt

namespace Machine

/-- `parity8(x)`: true when an odd number of the bits of `x` is set (R14). -/
def parity8 (x : Byte) : Bool :=
  x.getLsbD 0 ^^ x.getLsbD 1 ^^ x.getLsbD 2 ^^ x.getLsbD 3 ^^
    x.getLsbD 4 ^^ x.getLsbD 5 ^^ x.getLsbD 6 ^^ x.getLsbD 7

/-- `S_b` of R111 P3: the table's image of the byte with bit `b` alone set. -/
def singleBitImage (b : Fin 8) : BitVec 7 :=
  match b with
  | 0 => 0x55#7
  | 1 => 0x56#7
  | 2 => 0x59#7
  | 3 => 0x5A#7
  | 4 => 0x65#7
  | 5 => 0x66#7
  | 6 => 0x69#7
  | 7 => 0x6A#7

/-- The named properties P1 to P3 of R111: what a claim about the codec assumes of the table (U1). -/
structure EccLaws (T : Byte → BitVec 7) : Prop where
  /-- P1: the table is linear. -/
  linear : ∀ x y, T (x ^^^ y) = T x ^^^ T y
  /-- P2: bit 6 is the parity of the byte. -/
  flag : ∀ x, (T x).getLsbD 6 = parity8 x
  /-- P3: the images of the eight single-bit bytes. -/
  singleBit : ∀ b : Fin 8, T (1#8 <<< b.val) = singleBitImage b

/-- One entry of the table by the formula of R110: bit 6 the parity of the byte, bits 5:0 the column parities
`CP5` to `CP0`. -/
def eccEntry (x : Byte) : BitVec 7 :=
  let b := fun i => x.getLsbD i
  BitVec.ofBool (parity8 x) ++
    (BitVec.ofBool (b 4 ^^ b 5 ^^ b 6 ^^ b 7) ++ (BitVec.ofBool (b 0 ^^ b 1 ^^ b 2 ^^ b 3) ++
      (BitVec.ofBool (b 2 ^^ b 3 ^^ b 6 ^^ b 7) ++ (BitVec.ofBool (b 0 ^^ b 1 ^^ b 4 ^^ b 5) ++
        (BitVec.ofBool (b 1 ^^ b 3 ^^ b 5 ^^ b 7) ++ BitVec.ofBool (b 0 ^^ b 2 ^^ b 4 ^^ b 6))))))

/-- `ECC_TABLE` as R110 gives it (D12). -/
def defaultEccTable : Vector (BitVec 7) 256 :=
  ⟨((List.range 256).map fun k => eccEntry (BitVec.ofNat 8 k)).toArray, by simp⟩

/-- The default of `MAP_MAX`: the least capacity that holds every 16-bit index (R13, D26). -/
def defaultMapMax : Nat := 65536

/-- The parameters a block has unless its implementation says otherwise (R13). -/
def defaultConfig : Config := { eccTable := defaultEccTable, mapMax := defaultMapMax }

end Machine

end Sys2Proof
end

