-- ==== Sys2Proof/Machine/HostSyntax.lean ====
section
/-! DEFINITION. What the host can do to the block (R8, R23, R260): the names of the registers (R24) and the accesses
of a host program (R98). A command reaches the engine as one of these accesses, a write of its word to `CMD`. -/

namespace Sys2Proof.Machine

/-- The registers of the map of R24, by name. -/
inductive Reg where
  | cmd | status | cfg | mapsize | nact | srcid | srclenLo | srclenHi
  | numblocks | spareorgLo | spareorgHi | blkidx | opa | res | resh | presA | presB
  /-- Byte `k` of spare buffer A. -/
  | spa (k : Fin 16)
  /-- Byte `k` of spare buffer B. -/
  | spb (k : Fin 16)
deriving DecidableEq, Repr

/-- One thing the host does between two steps of the engine. Register numbers above 63 do not exist (R23, U7): the
type holds none. -/
inductive Access where
  /-- `RegRead(r)` (R23). -/
  | read (r : Fin 64)
  /-- `RegWrite(r, v)` (R23); with r = 0 it starts a command (R25). -/
  | write (r : Fin 64) (v : Word)
  /-- The hardware reset input (R260). -/
  | reset
  /-- The host changes what the source-memory port serves at one byte of one source: a byte, or nothing there
  (R10, R61; in the middle of a run it breaks a host duty, R268, U12, and stays defined). -/
  | serve (src : BitVec 16) (off : BitVec 46) (byte : Option Byte)
deriving DecidableEq, Repr

/-- The register a number names (R24); `none` for the reserved numbers 17 to 31 (R23). -/
def regOfNumber (r : Fin 64) : Option Reg :=
  match r.val with
  | 0 => some .cmd
  | 1 => some .status
  | 2 => some .cfg
  | 3 => some .mapsize
  | 4 => some .nact
  | 5 => some .srcid
  | 6 => some .srclenLo
  | 7 => some .srclenHi
  | 8 => some .numblocks
  | 9 => some .spareorgLo
  | 10 => some .spareorgHi
  | 11 => some .blkidx
  | 12 => some .opa
  | 13 => some .res
  | 14 => some .resh
  | 15 => some .presA
  | 16 => some .presB
  | n =>
    if n < 32 then none
    else if n < 48 then some (.spa (Fin.ofNat 16 (n - 32)))
    else some (.spb (Fin.ofNat 16 (n - 48)))

/-- The number of a register (R24). -/
def Reg.number : Reg → Fin 64
  | .cmd => 0
  | .status => 1
  | .cfg => 2
  | .mapsize => 3
  | .nact => 4
  | .srcid => 5
  | .srclenLo => 6
  | .srclenHi => 7
  | .numblocks => 8
  | .spareorgLo => 9
  | .spareorgHi => 10
  | .blkidx => 11
  | .opa => 12
  | .res => 13
  | .resh => 14
  | .presA => 15
  | .presB => 16
  | .spa k => Fin.ofNat 64 (32 + k.val)
  | .spb k => Fin.ofNat 64 (48 + k.val)

/-- The width in bits of a register (R24, column W). -/
def Reg.width : Reg → Nat
  | .status => 11
  | .cfg => 1
  | .mapsize | .nact => 17
  | .srcid => 16
  | .srclenHi | .spareorgHi => 14
  | .spa _ | .spb _ => 8
  | .cmd | .srclenLo | .numblocks | .spareorgLo | .blkidx | .opa | .res | .resh | .presA | .presB => 32

/-- The host may read and write the register and reads back what it wrote (R24, access RW). -/
def Reg.readWrite : Reg → Bool
  | .cfg | .mapsize | .srcid | .srclenLo | .srclenHi | .blkidx | .opa | .spa _ | .spb _ => true
  | .cmd | .status | .nact | .numblocks | .spareorgLo | .spareorgHi | .res | .resh | .presA | .presB => false

end Sys2Proof.Machine
end

