-- ==== Sys2Proof/Machine/State.lean ====
section
/-! DEFINITION. The state of HSEC3: every register of R24, the block map (R40), and, as the model's own fields, what
stands on the other side of the block's ports: the diagnostic stream (R44), the sources and the answers of the
source-memory port (R45, R62), the host's accesses still to come and what its reads returned (R8, R23), and the
parameters (R13). Registers that are functions of others (`NUMBLOCKS`, `SPAREORG_*`, R32) and the register that holds
nothing (`CMD`, R25) are no fields. -/

namespace Sys2Proof.Machine

/-- `STATUS.FCAUSE` (R26, R227). -/
inductive FCause where
  | noCause | mismatch | duplicate | io
deriving DecidableEq, Repr

/-- `STATUS.CERR` (R26, R236); the codes 5 to 15 are never produced (U10). -/
inductive CErr where
  | ok | illegal | halted | nomap | operand
deriving DecidableEq, Repr

/-- `STATUS.BRES`, the verdict on the last block processed (R26). -/
inductive BRes where
  | noVerdict | skipBlank | skipInvalid | claimed | dropRange | fatalMismatch | fatalDup | fatalIo
deriving DecidableEq, Repr

/-- The class of a parse (R35, R141); the register's fourth class `NONE` is never a result of one (U10). -/
inductive ParseClass where
  | blank | invalid | index
deriving DecidableEq, Repr

/-- The outcome of `correct` (R34, R114). -/
inductive EccOutcome where
  | ok | corrected | uncorrectable
deriving DecidableEq, Repr

/-- The kind of a diagnostic record (R44); the kind 0 is never emitted. -/
inductive DiagKind where
  | mismatch | range | duplicate
deriving DecidableEq, Repr

/-- One record of the diagnostic stream, with the fields of R44. -/
structure DiagRecord where
  kind : DiagKind
  src : BitVec 16
  blk : BitVec 32
  idx : BitVec 16
  idx2 : BitVec 16
  psrc : BitVec 16
  pblk : BitVec 32
deriving DecidableEq, Repr

/-- A mapped slot: `Mapped(src, blk)` (R40). Every pair is legal. -/
structure Slot where
  src : BitVec 16
  blk : BitVec 32
deriving DecidableEq, Repr

/-- One request at the source-memory port (R61). The length is always 16. -/
structure PortRequest where
  src : BitVec 16
  off : Nat
deriving DecidableEq, Repr

/-- How the host lets the port answer one request (R62, R276): with what the source holds there, with `IoError`
whatever it holds, or never. -/
inductive PortAnswer where
  | serve | ioError | silent
deriving DecidableEq, Repr

/-- A spare record, 16 bytes (R15); also a spare buffer (R36). -/
abbrev SpareRecord := Vector Byte 16

/-- Source memory (R60): the bytes the port serves, each at the key of its source and offset, keys strictly rising. An
unlisted key is a byte the port does not serve (R62). -/
abbrev Memory := List Host.Cell

/-- The slots of the block map that are `Mapped`, each at its index, indices strictly rising; an unlisted index is
`Unmapped` (R40). -/
abbrev SlotMap := List (Nat × Slot)

/-- Why the machine can stop. -/
inductive Fault where
  /-- Raised by `LOADSP`, `BLKSCAN` and `SRCSCAN` when the source-memory port never answers a read: the command never
  returns, and no further step follows (U6 'stuck', R276; log entry 5). Safe: the machine stops where nothing is known. -/
  | portSilent
deriving DecidableEq, Repr

/-- Why an instruction has no meaning in the model. -/
inductive Refusal where
  /-- The arm of `exec` for an instruction that is not modelled. No arm answers it: every command of R92 is modelled.
  Safe. -/
  | notModelled (mnemonic : String)
deriving DecidableEq, Repr

/-- The state of the machine. -/
structure State where
  /-- `CFG`, bit 0 `VARIANT` (R27). -/
  cfg : BitVec 1
  /-- `MAPSIZE` (R28). -/
  mapsize : BitVec 17
  /-- `NACT` (R29). -/
  nact : BitVec 17
  /-- `SRCID` (R30). -/
  srcid : BitVec 16
  /-- `SRCLEN_LO` (R31). -/
  srclenLo : BitVec 32
  /-- `SRCLEN_HI` (R31). -/
  srclenHi : BitVec 14
  /-- `BLKIDX`, the cursor (R22). -/
  blkidx : BitVec 32
  /-- `OPA` (R33). -/
  opa : BitVec 32
  /-- `RES` (R34). -/
  res : BitVec 32
  /-- `RESH` (R34). -/
  resh : BitVec 32
  /-- `PRES_A` (R35). -/
  presA : BitVec 32
  /-- `PRES_B` (R35). -/
  presB : BitVec 32
  /-- `SPA[0..15]` (R36). -/
  spa : SpareRecord
  /-- `SPB[0..15]` (R36). -/
  spb : SpareRecord
  /-- `STATUS.FATAL` (R26). -/
  fatal : Bool
  /-- `STATUS.FCAUSE` (R26). -/
  fcause : FCause
  /-- `STATUS.CERR` (R26). -/
  cerr : CErr
  /-- `STATUS.BRES` (R26). -/
  bres : BRes
  /-- The block map (R40, R42). It is present exactly while `STATUS.MAPV` is 1: while `MAPV` is 0 its contents are
  unspecified and no command observes them, and U4 lets a model hold no map then (DESIGN CHOICE, log entry 7, safe). -/
  map : Option SlotMap
  /-- The diagnostic stream, oldest record first (R44). An output: no step reads it. -/
  diag : List DiagRecord
  /-- What the source-memory port serves (R61, R45). The host's, held here: DESIGN CHOICE, log entries 3 and 5, safe. -/
  sources : Memory
  /-- The port's answers to the next requests, one each; a request beyond the list is served (R62, U6). The host's, held
  here: DESIGN CHOICE, log entry 5, safe. -/
  portAnswers : List PortAnswer
  /-- The requests the engine has made at the port, oldest first (R61, R73). An output: no step reads it. DESIGN CHOICE,
  log entry 2, safe. -/
  portLog : List PortRequest
  /-- The host's accesses that have not happened yet, the next one first (R8, R91). DESIGN CHOICE, log entry 1, safe. -/
  pending : List Access
  /-- What the host's reads returned, oldest first (R23). An output: no step reads it. DESIGN CHOICE, log entry 2, safe. -/
  replies : List Word
  /-- The parameters of this block (R13). No step changes them. Held here: DESIGN CHOICE, log entry 8. -/
  config : Config
deriving DecidableEq, Repr

/-- `STATUS.MAPV`: the map holds defined contents (R26). -/
def State.mapv (s : State) : Bool := s.map.isSome

/-- The machine right after a hardware reset (R50): every register 0 but `MAPSIZE`, which holds the default N; no map;
nothing at the ports; the default parameters. -/
def State.reset : State where
  cfg := 0#1
  mapsize := 0x3000#17
  nact := 0#17
  srcid := 0#16
  srclenLo := 0#32
  srclenHi := 0#14
  blkidx := 0#32
  opa := 0#32
  res := 0#32
  resh := 0#32
  presA := 0#32
  presB := 0#32
  spa := Vector.replicate 16 0#8
  spb := Vector.replicate 16 0#8
  fatal := false
  fcause := .noCause
  cerr := .ok
  bres := .noVerdict
  map := none
  diag := []
  sources := []
  portAnswers := []
  portLog := []
  pending := []
  replies := []
  config := defaultConfig

/-- What an instruction or a step answers. -/
abbrev Out := Host.Outcome State Fault Refusal

end Sys2Proof.Machine
end

