-- ==== Sys2Proof/Machine/Flags.lean ====
section
/-! DEFINITION. The numeric codes of R227 and the packing of `STATUS` (R26), `RES` (R34) and `PRES_A`, `PRES_B` (R35). HSEC3 has
no arithmetic flags: its flags are the fields of `STATUS` (R37). -/

namespace Sys2Proof.Machine

/-- The code of `STATUS.FCAUSE` (R227). -/
def FCause.code : FCause → BitVec 2
  | .noCause => 0
  | .mismatch => 1
  | .duplicate => 2
  | .io => 3

/-- The code of `STATUS.CERR` (R227, R236). -/
def CErr.code : CErr → BitVec 4
  | .ok => 0
  | .illegal => 1
  | .halted => 2
  | .nomap => 3
  | .operand => 4

/-- The code of `STATUS.BRES` (R227). -/
def BRes.code : BRes → BitVec 3
  | .noVerdict => 0
  | .skipBlank => 1
  | .skipInvalid => 2
  | .claimed => 3
  | .dropRange => 4
  | .fatalMismatch => 5
  | .fatalDup => 6
  | .fatalIo => 7

/-- The code of a parse class (R227); 0 is `NONE`, the register before any parse. -/
def ParseClass.code : ParseClass → BitVec 2
  | .blank => 1
  | .invalid => 2
  | .index => 3

/-- The code of an ECC outcome (R227). -/
def EccOutcome.code : EccOutcome → BitVec 2
  | .ok => 0
  | .corrected => 1
  | .uncorrectable => 2

/-- The code of a diagnostic kind (R44). -/
def DiagKind.code : DiagKind → BitVec 2
  | .mismatch => 1
  | .range => 2
  | .duplicate => 3

/-- `STATUS` as the host reads it (R26): `BRES` 10:8, `CERR` 7:4, `FCAUSE` 3:2, `FATAL` 1, `MAPV` 0, zeros above. -/
def State.statusWord (s : State) : Word :=
  (0#21 ++ (s.bres.code ++ (s.cerr.code ++ (s.fcause.code ++ (BitVec.ofBool s.fatal ++ BitVec.ofBool s.mapv)))) :
    BitVec (21 + (3 + (4 + (2 + (1 + 1))))))

/-- `RES` after `ECCCOR` and `ECCFIX` (R34): the computed checksum 31:24, `d1` 23:16, `d0` 15:8, a zero, `BITPOS` 6:2,
`OUTCOME` 1:0. -/
def correctionWord (computed d1 d0 : Byte) (pos : BitVec 4) (out : EccOutcome) : Word :=
  (computed ++ (d1 ++ (d0 ++ (0#1 ++ ((0#1 ++ pos) ++ out.code)))) : BitVec (8 + (8 + (8 + (1 + ((1 + 4) + 2))))))

/-- `PRES_A`, `PRES_B` after a parse (R35, R142): `INDEX` 31:16, zeros 15:9, `BITPOS` 8:4, `ECCOUT` 3:2, `CLASS` 1:0. -/
def parseWord (idx : BitVec 16) (pos : BitVec 4) (out : EccOutcome) (cls : ParseClass) : Word :=
  (idx ++ (0#7 ++ ((0#1 ++ pos) ++ (out.code ++ cls.code))) : BitVec (16 + (7 + ((1 + 4) + (2 + 2)))))

/-- `RESH` after a `MAPGET` of a mapped slot (R34, R201): `VALID` 31, zeros 30:16, the source id 15:0. -/
def mappedWord (src : BitVec 16) : Word := (1#1 ++ (0#15 ++ src) : BitVec (1 + (15 + 16)))

end Sys2Proof.Machine
end

