-- ==== Sys2Proof/Machine/Operands.lean ====
section
/-! DEFINITION. Where each command takes its operands (R94), and the geometry of the current source (R64, R66). -/

namespace Sys2Proof.Machine

/-- `d0`, also `byte0`: `OPA[7:0]`, ECC sample 0 (R94). -/
def State.opaD0 (s : State) : Byte := s.opa.extractLsb' 0 8

/-- `d1`, also `byte1`: `OPA[15:8]`, ECC sample 1 (R94). -/
def State.opaD1 (s : State) : Byte := s.opa.extractLsb' 8 8

/-- `stored`: `OPA[23:16]` (R94). -/
def State.opaStored (s : State) : Byte := s.opa.extractLsb' 16 8

/-- `computed`: `OPA[31:24]` (R94). -/
def State.opaComputed (s : State) : Byte := s.opa.extractLsb' 24 8

/-- `sel = OPA[0]` of `PARSE`: false names `SPA`, true names `SPB` (R94). -/
def State.opaSel (s : State) : Bool := s.opa.getLsbD 0

/-- `i = OPA[31:0]` of `MAPGET` (R94). -/
def State.opaIndex (s : State) : Nat := s.opa.toNat

/-- `L`: the 46-bit length of the current source in bytes, `SRCLEN_HI` above `SRCLEN_LO` (R31). -/
def State.sourceLength (s : State) : Nat := (s.srclenHi ++ s.srclenLo : BitVec (14 + 32)).toNat

/-- `numPages` of a source of `L` bytes: whole pages of `PAGE_RAW` = 528 bytes (R11, R64). -/
def numPages (L : Nat) : Nat := L / 528

/-- `numBlocks` of a source of `L` bytes: whole blocks of `PAGES_PER_BLOCK` = 32 pages (R11, R64). -/
def numBlocks (L : Nat) : Nat := numPages L / 32

/-- `spareOrigin` of a source of `L` bytes: the spare records follow `PAGE_DATA` = 512 bytes of every page (R11, R64). -/
def spareOrigin (L : Nat) : Nat := numPages L * 512

/-- `offA(i)`: the spare record of block `i`'s first page; a block has `BLOCK_SPARE` = 512 spare bytes (R11, R66). -/
def offA (L i : Nat) : Nat := spareOrigin L + i * 512

/-- `offB(i)`: the spare record of block `i`'s last page, `LAST_PAGE_OFF` = 0x1F0 further (R11, R66). -/
def offB (L i : Nat) : Nat := spareOrigin L + i * 512 + 0x1F0

/-- `i >= numBlocks(L)`: the block under the cursor does not exist (R94). -/
def State.cursorBeyondSource (s : State) : Bool := decide (numBlocks s.sourceLength ≤ s.blkidx.toNat)

/-- `n > MAP_MAX`: the requested map is larger than the block can hold (R94, R200). -/
def State.mapsizeTooLarge (s : State) : Bool := decide (s.config.mapMax < s.mapsize.toNat)

/-- `i >= N`: the index of `MAPGET` is no slot (R94, R201). -/
def State.indexBeyondMap (s : State) : Bool := decide (s.nact.toNat ≤ s.opaIndex)

end Sys2Proof.Machine
end

