-- ==== Sys2Proof/Machine/Sparse.lean ====
section
/-! DEFINITION. Lists of keyed entries in one canonical form, keys strictly rising: source memory (R60) and the mapped slots
of the block map (R40) are both held so. -/

namespace Sys2Proof.Machine

variable {α : Type}

/-- The entry at a key; `none` where nothing is listed. -/
def Sparse.get : List (Nat × α) → Nat → Option α
  | [], _ => none
  | (k, v) :: rest, a => if a = k then some v else Sparse.get rest a

/-- Write an entry, keeping the keys rising. -/
def Sparse.put : List (Nat × α) → Nat → α → List (Nat × α)
  | [], a, v => [(a, v)]
  | (k, w) :: rest, a, v =>
    if a < k then (a, v) :: (k, w) :: rest
    else if a = k then (a, v) :: rest
    else (k, w) :: Sparse.put rest a v

/-- Remove the entry at a key, if there is one. -/
def Sparse.erase : List (Nat × α) → Nat → List (Nat × α)
  | [], _ => []
  | (k, w) :: rest, a => if a = k then Sparse.erase rest a else (k, w) :: Sparse.erase rest a

/-- The canonical form: keys strictly rise. -/
abbrev Sparse.wf (m : List (Nat × α)) : Prop := m.Pairwise fun p q => p.1 < q.1

/-- The key of byte `off` of source `src`: 46 bits of offset below the source id (R60, R61). -/
def sourceKey (src : BitVec 16) (off : Nat) : Nat := src.toNat * 2 ^ 46 + off

/-- The byte the port serves at an offset of a source. An unlisted byte, or an offset of more than 46 bits (R61), reads
as `none`: the port does not serve it (R62). This is the one place that says what an unlisted address reads as. -/
def Memory.byteAt (m : Memory) (src : BitVec 16) (off : Nat) : Option Byte :=
  if off < 2 ^ 46 then Sparse.get m (sourceKey src off) else none

/-- Change what the port serves at one byte; `none`, which an unlisted address reads as, removes the entry. -/
def Memory.set (m : Memory) (src : BitVec 16) (off : BitVec 46) : Option Byte → Memory
  | some b => Sparse.put m (sourceKey src off.toNat) b
  | none => Sparse.erase m (sourceKey src off.toNat)

/-- The canonical form of source memory. -/
abbrev Memory.wf (m : Memory) : Prop := Sparse.wf m

/-- The 16 bytes at offsets `off` to `off + 15` of a source, in ascending order, if the port serves them all (R62). -/
def Memory.record (m : Memory) (src : BitVec 16) (off : Nat) : Option SpareRecord :=
  if (List.range 16).all fun k => (m.byteAt src (off + k)).isSome then
    some (Vector.ofFn fun k => (m.byteAt src (off + k.val)).getD 0#8)
  else none

end Sys2Proof.Machine
end

