-- ==== Sys2Proof/Machine/Ops.lean ====
section
/-! DEFINITION. The operations that the meanings share: acceptance and command errors (R93, R235), the fatal condition (R230)
and the one way out of it (R202, R232), the diagnostic stream (R44), the block map (R40), the source-memory port (R62). -/

namespace Sys2Proof.Machine

/-- `STATUS.CERR <- c`, and nothing else (R93, R235). -/
def State.setCerr (s : State) (c : CErr) : State := { s with cerr := c }

/-- `STATUS.BRES <- v` (R26). -/
def State.setVerdict (s : State) (v : BRes) : State := { s with bres := v }

/-- `RES <- lo`, `RESH <- hi` (R34). -/
def State.setResult (s : State) (lo hi : Word) : State := { s with res := lo, resh := hi }

/-- `PRES_A <- w` (R35). -/
def State.setPresA (s : State) (w : Word) : State := { s with presA := w }

/-- `PRES_B <- w` (R35). -/
def State.setPresB (s : State) (w : Word) : State := { s with presB := w }

/-- Fill both spare buffers (R36, R161). -/
def State.setBuffers (s : State) (a b : SpareRecord) : State := { s with spa := a, spb := b }

/-- `BLKIDX <- i` (R16, R22). -/
def State.setCursor (s : State) (i : BitVec 32) : State := { s with blkidx := i }

/-- `emit DIAG(r)`: append one record (R44). -/
def State.emit (s : State) (r : DiagRecord) : State := { s with diag := s.diag ++ [r] }

/-- The accesses still to come are `rest` (R8). -/
def State.setPending (s : State) (rest : List Access) : State := { s with pending := rest }

/-- A read has returned `v` to the host (R23). -/
def State.addReply (s : State) (v : Word) : State := { s with replies := s.replies ++ [v] }

/-- The host has changed what the port serves (R61). -/
def State.setSources (s : State) (m : Memory) : State := { s with sources := m }

/-- `raise CmdError(c)` (R93, R235): the command ends with `CERR` set and nothing else changed. -/
def cmdError (c : CErr) (s : State) : Out := .next (s.setCerr c)

/-- `raise Fatal(cause)` with the verdict its rule writes just before it (R230): `BRES`, `FATAL` and `FCAUSE` are set; no
pc is saved, no mode changes and control goes nowhere. -/
def State.raiseFatal (s : State) (cause : FCause) (verdict : BRes) : State :=
  { s with bres := verdict, fatal := true, fcause := cause }

/-- The reset of the block, by the hardware input or by `SRST` (R50, R202, R260): every register at its reset value and
the map unspecified. What is the host's or already emitted stays: the diagnostic stream, the sources, the port and its
requests, the accesses to come, the replies given, the parameters. -/
def State.resetBlock (s : State) : State :=
  { State.reset with
    diag := s.diag, sources := s.sources, portAnswers := s.portAnswers, portLog := s.portLog,
    pending := s.pending, replies := s.replies, config := s.config }

/-- The acceptance tests of R93 in their order, for a command other than `SRST`: 1 `HALTED`, 3 `NOMAP` where the command
needs the map, 4 `OPERAND` where its operand check fails; test 2 is the decoder's. Accepted, `CERR` is `OK` and the body
runs. -/
def accept (needsMap operandRefused : Bool) (s : State) (body : State → Out) : Out :=
  if s.fatal = true then cmdError .halted s
  else if needsMap = true ∧ s.mapv = false then cmdError .nomap s
  else if operandRefused = true then cmdError .operand s
  else body (s.setCerr .ok)

/-- Go on with a command's body unless what came before ended it: a fatal condition ends the command (R230), and so does
a port that never answers. -/
def andThen (o : Out) (f : State → Out) : Out :=
  match o with
  | .next s => if s.fatal = true then .next s else f s
  | .fault r => .fault r
  | .refused r => .refused r

/-- `MAP[i]`: the slot at an index, `none` for `Unmapped` (R40). -/
def State.slotAt (s : State) (i : Nat) : Option Slot :=
  match s.map with
  | some m => Sparse.get m i
  | none => none

/-- `MAP[i] <- Mapped(p)` (R40). -/
def State.setSlot (s : State) (i : Nat) (p : Slot) : State :=
  { s with map := s.map.map fun m => Sparse.put m i p }

/-- A map of `n` slots, all `Unmapped`, is in force: `NACT` and, by the presence of the map, `STATUS.MAPV` (R200). -/
def State.initMap (s : State) (n : BitVec 17) : State := { s with nact := n, map := some [] }

/-- What the engine gets from one read at the source-memory port (R62). -/
inductive ReadResult where
  | bytes (r : SpareRecord)
  | ioError
  | silent
deriving DecidableEq, Repr

/-- The port's answer to a request made now (R62): the host decides, and where it serves the request the answer is the
source's 16 bytes, or `IoError` if one of them is not there. -/
def State.portRead (s : State) (src : BitVec 16) (off : Nat) : ReadResult :=
  match s.portAnswers.headD .serve with
  | .silent => .silent
  | .ioError => .ioError
  | .serve =>
    match s.sources.record src off with
    | some r => .bytes r
    | none => .ioError

/-- A request has been made: it stands in the port's log and one of the host's answers is used up (R61). -/
def State.request (s : State) (src : BitVec 16) (off : Nat) : State :=
  { s with portLog := s.portLog ++ [{ src := src, off := off }], portAnswers := s.portAnswers.tail }

end Sys2Proof.Machine
end

