-- ==== Sys2Proof/Machine/Ecc.lean ====
section
/-! DEFINITION. The ECC codec: the pure functions `decode` and `correct` over any table (R112, R114, U1) and the commands
`ECCDEC`, `ECCCOR`, `ECCFIX` (R113, R115, R116). -/

namespace Sys2Proof.Machine

/-- `decode(byte0, byte1)` (R112): the inverse of the line code `{lpHi, lpLo}` above the combined column parity. -/
def eccDecode (T : Byte → BitVec 7) (byte0 byte1 : Byte) : Byte :=
  let t0 := T byte0
  let t1 := T byte1
  let cp := t0.extractLsb' 0 6 ^^^ t1.extractLsb' 0 6
  let lpLo := t0.extractLsb' 6 1
  let lpHi := t1.extractLsb' 6 1
  ~~~((lpHi ++ lpLo) ++ cp : BitVec ((1 + 1) + 6))

/-- `popcount` of a byte (R14). -/
def popcount (x : Byte) : Nat := ((List.range 8).filter fun i => x.getLsbD i).length

/-- What `correct` returns (R114): the outcome, the position (four significant bits, conflict C1) and the data pair after
the operation. -/
structure Correction where
  out : EccOutcome
  pos : BitVec 4
  d0 : Byte
  d1 : Byte
deriving DecidableEq, Repr

/-- The pair test of R114: true when some pair of `diff` has equal bits. -/
def pairTestFails (diff : Byte) : Bool := decide (~~~(diff ^^^ (diff >>> 1)) &&& 0x55#8 ≠ 0#8)

/-- The position a syndrome spells: its odd bits, most significant first (R114). -/
def syndromePosition (diff : Byte) : BitVec 4 :=
  (diff.extractLsb' 7 1 ++ (diff.extractLsb' 5 1 ++ (diff.extractLsb' 3 1 ++ diff.extractLsb' 1 1)) :
    BitVec (1 + (1 + (1 + 1))))

/-- The bit of a data byte that a position names: `1 << pos[2:0]` (R114). -/
def positionMask (pos : BitVec 4) : Byte := 1#8 <<< (pos.extractLsb' 0 3).toNat

/-- `correct(d0, d1, stored, computed)` (R114). The stored checksum is an input only (conflicts C2, C6). -/
def correct (d0 d1 stored computed : Byte) : Correction :=
  let diff := stored ^^^ computed
  if popcount diff ≤ 1 then { out := .ok, pos := 0, d0 := d0, d1 := d1 }
  else if pairTestFails diff = true then { out := .uncorrectable, pos := 0, d0 := d0, d1 := d1 }
  else
    let pos := syndromePosition diff
    if pos.getLsbD 3 = false then { out := .corrected, pos := pos, d0 := d0 ^^^ positionMask pos, d1 := d1 }
    else { out := .corrected, pos := pos, d0 := d0, d1 := d1 ^^^ positionMask pos }

/-- `RES` after a correction that used `computed` (R115, R116). -/
def Correction.word (c : Correction) (computed : Byte) : Word := correctionWord computed c.d1 c.d0 c.pos c.out

/-- `ECCDEC` (R113). -/
def execEccdec (s : State) : Out :=
  accept false false s fun t =>
    .next (t.setResult ((eccDecode t.config.ecc t.opaD0 t.opaD1).setWidth 32) 0#32)

/-- `ECCCOR` (R115). -/
def execEcccor (s : State) : Out :=
  accept false false s fun t =>
    .next (t.setResult ((correct t.opaD0 t.opaD1 t.opaStored t.opaComputed).word t.opaComputed) 0#32)

/-- `ECCFIX` (R116). -/
def execEccfix (s : State) : Out :=
  accept false false s fun t =>
    let computed := eccDecode t.config.ecc t.opaD0 t.opaD1
    .next (t.setResult ((correct t.opaD0 t.opaD1 t.opaStored computed).word computed) 0#32)

end Sys2Proof.Machine
end

