-- ==== Sys2Proof/Machine/Parser.lean ====
section
/-! DEFINITION. The spare-metadata parser: the pure function `parse` (R141) and the command `PARSE` (R142). -/

namespace Sys2Proof.Machine

/-- What `parse` returns (R141): the class, the index (0 unless the class is `INDEX`), and the outcome and position of the
correction step. -/
structure ParseResult where
  cls : ParseClass
  idx : BitVec 16
  out : EccOutcome
  pos : BitVec 4
deriving DecidableEq, Repr

/-- The protected field of a record as the 24-bit big-endian word of the blank test (R67, R140, R141). -/
def protectedField (S : SpareRecord) : BitVec 24 := (S[13] ++ (S[14] ++ S[15]) : BitVec (8 + (8 + 8)))

/-- Step 1 of `parse`: the protected field is all zeros or all ones (R141). -/
def fieldIsBlank (S : SpareRecord) : Bool :=
  decide (protectedField S = 0x000000#24) || decide (protectedField S = 0xFFFFFF#24)

/-- Step 3 of `parse`, on the pair after correction (R141, D17): the alternate mode takes the 16-bit value as it is; the
standard mode asks for the marker bit and takes bits 14:1. -/
def classifyValue (variant : BitVec 1) (c : Correction) : ParseResult :=
  let v : BitVec 16 := (c.d0 ++ c.d1 : BitVec (8 + 8))
  if variant = 1#1 then { cls := .index, idx := v, out := c.out, pos := c.pos }
  else if v.getLsbD 15 = false then { cls := .invalid, idx := 0, out := c.out, pos := c.pos }
  else { cls := .index, idx := (v &&& 0x7FFF#16) >>> 1, out := c.out, pos := c.pos }

/-- `parse(S, variant)` (R141). -/
def parse (T : Byte → BitVec 7) (S : SpareRecord) (variant : BitVec 1) : ParseResult :=
  if fieldIsBlank S = true then { cls := .blank, idx := 0, out := .ok, pos := 0 }
  else
    let c := correct S[13] S[14] S[15] (eccDecode T S[13] S[14])
    if c.out = .uncorrectable then { cls := .invalid, idx := 0, out := .uncorrectable, pos := 0 }
    else classifyValue variant c

/-- The word a parse leaves in `PRES_A` or `PRES_B` (R35, R142). -/
def ParseResult.word (p : ParseResult) : Word := parseWord p.idx p.pos p.out p.cls

/-- The parse of spare buffer A in a given mode, with this block's table (R163). -/
def State.parseA (s : State) (variant : BitVec 1) : ParseResult := parse s.config.ecc s.spa variant

/-- The parse of spare buffer B in a given mode, with this block's table (R163). -/
def State.parseB (s : State) (variant : BitVec 1) : ParseResult := parse s.config.ecc s.spb variant

/-- `PARSE` (R142): `OPA[0]` selects the buffer and the register of the result. -/
def execParse (s : State) : Out :=
  accept false false s fun t =>
    if t.opaSel = false then .next (t.setPresA (t.parseA t.cfg).word)
    else .next (t.setPresB (t.parseB t.cfg).word)

end Sys2Proof.Machine
end

