-- ==== Sys2Proof/Machine/Builder.lean ====
section
/-! DEFINITION. The block-map builder: step 1 of a block (R161), the reconciliation of its two parses (R162), the claim
(R163), and the commands `LOADSP`, `BLKCLAIM`, `BLKSCAN`, `SRCSCAN` (R161, R164, R165, R168). -/

namespace Sys2Proof.Machine

/-- The procedure `loadsp` (R161) for the block under the cursor: copy A is read before copy B, and copy B only if copy
A came (R69); both buffers are written or neither. -/
def loadsp (s : State) : Out :=
  let a := offA s.sourceLength s.blkidx.toNat
  let b := offB s.sourceLength s.blkidx.toNat
  let s1 := s.request s.srcid a
  match s.portRead s.srcid a with
  | .silent => .fault .portSilent
  | .ioError => .next (s1.raiseFatal .io .fatalIo)
  | .bytes ra =>
    let s2 := s1.request s.srcid b
    match s1.portRead s.srcid b with
    | .silent => .fault .portSilent
    | .ioError => .next (s2.raiseFatal .io .fatalIo)
    | .bytes rb => .next ((s2.setBuffers ra rb).setVerdict .noVerdict)

/-- Where steps 2 to 5 lead (R162). -/
inductive Resolution where
  | skipBlank
  | skipInvalid
  | mismatch (x y : BitVec 16)
  | goOn (idx : BitVec 16)
deriving DecidableEq, Repr

/-- The reconciliation table of R162, row by row. -/
def reconcile (a b : ParseResult) : Resolution :=
  match a.cls, b.cls with
  | .blank, _ => .skipBlank
  | _, .blank => .skipBlank
  | .invalid, .invalid => .skipInvalid
  | .invalid, .index => .goOn b.idx
  | .index, .invalid => .goOn a.idx
  | .index, .index => if a.idx = b.idx then .goOn a.idx else .mismatch a.idx b.idx

/-- A diagnostic record about the block in hand: its source, its number, the resolved index and zeros (R44). -/
def State.diagRecord (s : State) (kind : DiagKind) (idx : BitVec 16) : DiagRecord :=
  { kind := kind, src := s.srcid, blk := s.blkidx, idx := idx, idx2 := 0, psrc := 0, pblk := 0 }

/-- Step 5's fatal end (R163, R224). -/
def claimMismatch (x y : BitVec 16) (s : State) : State :=
  (s.emit { s.diagRecord .mismatch x with idx2 := y }).raiseFatal .mismatch .fatalMismatch

/-- Steps 6 and 7 for the resolved index (R163): out of range is dropped, a taken slot is fatal, a free one is claimed for
(`SRCID`, `BLKIDX`). -/
def claimIndex (idx : BitVec 16) (s : State) : State :=
  if s.nact.toNat ≤ idx.toNat then (s.emit (s.diagRecord .range idx)).setVerdict .dropRange
  else
    match s.slotAt idx.toNat with
    | some p =>
      (s.emit { s.diagRecord .duplicate idx with psrc := p.src, pblk := p.blk }).raiseFatal .duplicate .fatalDup
    | none => (s.setSlot idx.toNat { src := s.srcid, blk := s.blkidx }).setVerdict .claimed

/-- The procedure `claim` (R163), steps 2 to 7 for the records in the buffers on behalf of block `BLKIDX` of source
`SRCID`. Both copies are always parsed and both `PRES` registers written (D29). -/
def claim (variant : BitVec 1) (s : State) : State :=
  let s1 := (s.setPresA (s.parseA variant).word).setPresB (s.parseB variant).word
  match reconcile (s.parseA variant) (s.parseB variant) with
  | .skipBlank => s1.setVerdict .skipBlank
  | .skipInvalid => s1.setVerdict .skipInvalid
  | .mismatch x y => claimMismatch x y s1
  | .goOn idx => claimIndex idx s1

/-- The loop of `SRCSCAN` (R168) over the next `n` blocks: load, claim, advance the cursor; a fatal condition ends it with
the cursor on the offender. -/
def scanBlocks (variant : BitVec 1) : Nat → State → Out
  | 0, s => .next s
  | n + 1, s =>
    andThen (loadsp s) fun s1 =>
      andThen (.next (claim variant s1)) fun s2 =>
        scanBlocks variant n (s2.setCursor (s2.blkidx + 1))

/-- `LOADSP` (R161). -/
def execLoadsp (s : State) : Out :=
  accept false s.cursorBeyondSource s fun t => loadsp t

/-- `BLKCLAIM` (R164). -/
def execBlkclaim (s : State) : Out :=
  accept true false s fun t => .next (claim t.cfg t)

/-- `BLKSCAN` (R165). The mode is sampled before the block is loaded. -/
def execBlkscan (s : State) : Out :=
  accept true s.cursorBeyondSource s fun t => andThen (loadsp t) fun t1 => .next (claim t.cfg t1)

/-- `SRCSCAN` (R168). The mode is sampled once; the cursor starts at 0 whatever it held. -/
def execSrcscan (s : State) : Out :=
  accept true false s fun t =>
    scanBlocks t.cfg (numBlocks t.sourceLength) ((t.setCursor 0#32).setVerdict .noVerdict)

end Sys2Proof.Machine
end

