-- ==== Sys2Proof/Machine/MapSystem.lean ====
section
/-! DEFINITION. The map and system commands `MAPINIT`, `MAPGET`, `SRST` (R200, R201, R202). -/

namespace Sys2Proof.Machine

/-- `MAPINIT` (R200): N is latched, every slot becomes `Unmapped`, the map is valid. -/
def execMapinit (s : State) : Out :=
  accept false s.mapsizeTooLarge s fun t =>
    .next ((t.initMap t.mapsize).setVerdict .noVerdict)

/-- `MAPGET` (R201): the slot's block and source, or zeros where it is `Unmapped`. -/
def execMapget (s : State) : Out :=
  accept true s.indexBeyondMap s fun t =>
    match t.slotAt t.opaIndex with
    | some p => .next (t.setResult p.blk (mappedWord p.src))
    | none => .next (t.setResult 0#32 0#32)

/-- `SRST` (R202): accepted always, `FATAL` or not (R93); the block takes the reset state. -/
def execSrst (s : State) : Out := .next s.resetBlock

end Sys2Proof.Machine
end

