-- ==== Sys2Proof/Machine/Dispatch.lean ====
section
/-! DEFINITION. One arm for each command of R92: the call of its meaning. -/

namespace Sys2Proof.Machine

def exec (i : Instr) (s : State) : Host.Outcome State Fault Refusal :=
  match i with
  | .eccdec => Sys2Proof.Machine.execEccdec s
  | .ecccor => Sys2Proof.Machine.execEcccor s
  | .eccfix => Sys2Proof.Machine.execEccfix s
  | .parse => Sys2Proof.Machine.execParse s
  | .loadsp => Sys2Proof.Machine.execLoadsp s
  | .blkclaim => Sys2Proof.Machine.execBlkclaim s
  | .blkscan => Sys2Proof.Machine.execBlkscan s
  | .srcscan => Sys2Proof.Machine.execSrcscan s
  | .mapinit => Sys2Proof.Machine.execMapinit s
  | .mapget => Sys2Proof.Machine.execMapget s
  | .srst => Sys2Proof.Machine.execSrst s

end Sys2Proof.Machine
end

