-- ==== Sys2Proof/Machine/Bus.lean ====
section
/-! DEFINITION. The register interface (R23, R24) and the host's accesses: reading, writing, issuing a command by a write to
`CMD` (R25, R91, R93), the hardware reset (R260), a change of what the port serves. -/

namespace Sys2Proof.Machine

/-- The value of a register as `RegRead` returns it, zeros above its width (R23, R24). `CMD` reads 0. -/
def readReg (s : State) : Reg → Word
  | .cmd => 0#32
  | .status => s.statusWord
  | .cfg => s.cfg.setWidth 32
  | .mapsize => s.mapsize.setWidth 32
  | .nact => s.nact.setWidth 32
  | .srcid => s.srcid.setWidth 32
  | .srclenLo => s.srclenLo
  | .srclenHi => s.srclenHi.setWidth 32
  | .numblocks => BitVec.ofNat 32 (numBlocks s.sourceLength)
  | .spareorgLo => (BitVec.ofNat 46 (spareOrigin s.sourceLength)).extractLsb' 0 32
  | .spareorgHi => ((BitVec.ofNat 46 (spareOrigin s.sourceLength)).extractLsb' 32 14).setWidth 32
  | .blkidx => s.blkidx
  | .opa => s.opa
  | .res => s.res
  | .resh => s.resh
  | .presA => s.presA
  | .presB => s.presB
  | .spa k => s.spa[k].setWidth 32
  | .spb k => s.spb[k].setWidth 32

/-- `RegRead(r)` by number: the reserved numbers read 0 (R23). -/
def regRead (s : State) (r : Fin 64) : Word :=
  match regOfNumber r with
  | some reg => readReg s reg
  | none => 0#32

/-- Store a value in a register, keeping the bits of its width (R23). A write to a register the host may not write is
ignored; `CMD` stores nothing (R25). -/
def writeReg (s : State) (reg : Reg) (v : Word) : State :=
  match reg with
  | .cfg => { s with cfg := v.setWidth 1 }
  | .mapsize => { s with mapsize := v.setWidth 17 }
  | .srcid => { s with srcid := v.setWidth 16 }
  | .srclenLo => { s with srclenLo := v }
  | .srclenHi => { s with srclenHi := v.setWidth 14 }
  | .blkidx => { s with blkidx := v }
  | .opa => { s with opa := v }
  | .spa k => { s with spa := s.spa.set k (v.setWidth 8) }
  | .spb k => { s with spb := s.spb.set k (v.setWidth 8) }
  | .cmd | .status | .nact | .numblocks | .spareorgLo | .spareorgHi | .res | .resh | .presA | .presB => s

/-- A write of the word `w` to `CMD` (R25, R93): the command it encodes runs, acceptance tests first. A word that encodes
none is refused, as `HALTED` in the fatal state and as `ILLEGAL` otherwise (R96, R237). -/
def issue (w : Word) (s : State) : Out :=
  match decode w with
  | .ok i => exec i s
  | .error _ => if s.fatal = true then cmdError .halted s else cmdError .illegal s

/-- `RegWrite(r, v)` by number (R23): `CMD` issues a command, a reserved number ignores the write. -/
def regWrite (r : Fin 64) (v : Word) (s : State) : Out :=
  match regOfNumber r with
  | some .cmd => issue v s
  | some reg => .next (writeReg s reg v)
  | none => .next s

/-- One access of the host. -/
def perform (a : Access) (s : State) : Out :=
  match a with
  | .read r => .next (s.addReply (regRead s r))
  | .write r v => regWrite r v s
  | .reset => .next s.resetBlock
  | .serve src off byte => .next (s.setSources (s.sources.set src off byte))

/-- The host's next access happens. With none to come the block is idle: it acts only when the host does (R8, R22). -/
def hostStep (s : State) : Out :=
  match s.pending with
  | [] => .next s
  | a :: rest => perform a (s.setPending rest)

/-- The access that issues the word of an opcode-table row. -/
def issueAccess (nbits w : Nat) : Access := .write 0 (BitVec.ofNat 32 (tableNumber nbits w))

end Sys2Proof.Machine
end

