-- ==== Sys2Proof/Machine/Step.lean ====
section
/-! DEFINITION. One step of the machine: the host's next access, a command among them, from start to end (R8, R91). -/

namespace Sys2Proof.Machine

/-- One step (R8, R91). -/
def step (s : State) : Host.Outcome State Fault Refusal := hostStep s

/-- The state with the instruction of an opcode-table row where the next step takes it: as the host's next access, a write
of its word to `CMD`. -/
def State.withFetchWord (s : State) (nbits w : Nat) : State :=
  { s with pending := issueAccess nbits w :: s.pending }

end Sys2Proof.Machine
end

