-- ==== Sys2Proof/Machine/Handoff.lean ====
section
/-! DEFINITION. The contract of the map's consumer (R78, R208, R209). The image reconstructor is outside HSEC3 (R7): no step
calls this file; it says what a finished map means. -/

namespace Sys2Proof.Machine

/-- The map may be consumed: it is there and no fatal condition has occurred (R208). -/
def State.mapConsumable (s : State) : Bool := s.mapv && !s.fatal

/-- Where the data of a physical block starts in its source: `BLOCK_DATA` = 16384 bytes a block (R11, R78). -/
def blockDataOffset (blk : BitVec 32) : Nat := blk.toNat * 16384

/-- Byte `k` of the 16384 output bytes of logical slot `i` (R209): the claiming source's byte, `none` if the source does
not serve it, or 0xFF for an unmapped slot. -/
def State.imageByte (s : State) (i k : Nat) : Option Byte :=
  match s.slotAt i with
  | some p => s.sources.byteAt p.src (blockDataOffset p.blk + k)
  | none => some 0xFF#8

end Sys2Proof.Machine
end

