-- ==== Sys2Proof/Machine/HostProgram.lean ====
section
/-! DEFINITION. Host programs in the notation of R98 and the pseudo-statements of R99. -/

namespace Sys2Proof.Machine

/-- `WR reg, value` (R98). -/
def wr (reg : Reg) (v : Word) : Access := .write reg.number v

/-- `RD reg` (R98). -/
def rd (reg : Reg) : Access := .read reg.number

/-- `CMD mnemonic` (R98). -/
def cmd (i : Instr) : Access := wr .cmd (encode i)

/-- `SETSRC s, L` (R99). -/
def setsrc (src : BitVec 16) (L : BitVec 46) : List Access :=
  [wr .srcid (src.setWidth 32), wr .srclenLo (L.extractLsb' 0 32), wr .srclenHi ((L.extractLsb' 32 14).setWidth 32)]

/-- `SETSPA b0, …, b15` (R99). -/
def setspa (r : SpareRecord) : List Access := (List.finRange 16).map fun k => wr (.spa k) (r[k].setWidth 32)

/-- `SETSPB b0, …, b15` (R99). -/
def setspb (r : SpareRecord) : List Access := (List.finRange 16).map fun k => wr (.spb k) (r[k].setWidth 32)

/-- `SETFLD A, f0, f1, f2` (R99). -/
def setfldA (f0 f1 f2 : Byte) : List Access :=
  [wr (.spa 13) (f0.setWidth 32), wr (.spa 14) (f1.setWidth 32), wr (.spa 15) (f2.setWidth 32)]

/-- `SETFLD B, f0, f1, f2` (R99). -/
def setfldB (f0 f1 f2 : Byte) : List Access :=
  [wr (.spb 13) (f0.setWidth 32), wr (.spb 14) (f1.setWidth 32), wr (.spb 15) (f2.setWidth 32)]

/-- `ECC3 d0, d1, ck` (R99). -/
def ecc3 (d0 d1 ck : Byte) : List Access :=
  [wr .opa (0#8 ++ (ck ++ (d1 ++ d0)) : BitVec (8 + (8 + (8 + 8)))), cmd .eccfix]

/-- Accesses one after the other, until one does not return. -/
def performAll : List Access → State → Out
  | [], s => .next s
  | a :: rest, s =>
    match perform a s with
    | .next t => performAll rest t
    | .fault r => .fault r
    | .refused r => .refused r

/-- The part of `RUN` that scans the sources in argument order and stops after the first that leaves `STATUS.FATAL` set
(R99, R169). -/
def runSources : List (BitVec 16 × BitVec 46) → State → Out
  | [], s => .next s
  | (src, L) :: rest, s =>
    match performAll (setsrc src L ++ [cmd .srcscan, rd .status]) s with
    | .next t => if t.fatal = true then .next t else runSources rest t
    | .fault r => .fault r
    | .refused r => .refused r

/-- `RUN N, variant, (s0, L0), …`: the scan phase of a run (R99, R169, R263). -/
def runScan (n : BitVec 17) (variant : BitVec 1) (srcs : List (BitVec 16 × BitVec 46)) (s : State) : Out :=
  match performAll [wr .mapsize (n.setWidth 32), wr .cfg (variant.setWidth 32), cmd .mapinit] s with
  | .next t => runSources srcs t
  | .fault r => .fault r
  | .refused r => .refused r

end Sys2Proof.Machine
end

