-- ==== Sys2Proof/WellFormed.lean ====
section
/-! DEFINITION. Well-formedness. A command has no operand in its word (R90, R94), so every `Instr` is well formed. What
the spec asks of a host program (D35, U7, U8, U10) is a check on its accesses: it touches no reserved number, relies on
no dropped bit, writes no read-only register and reads no write-only one. The block itself gives every access a meaning
(R23), so no step asks for the check; Safety.lean's disciplined programs do. -/

namespace Sys2Proof

/-- Every command is well formed: no field of its word is an operand (R90). -/
def Instr.wellFormed : Instr → Bool
  | .eccdec | .ecccor | .eccfix | .parse | .loadsp | .blkclaim | .blkscan | .srcscan | .mapinit | .mapget | .srst => true

namespace Machine

/-- The access stays off what U7 and U8 tell a host program to leave alone. -/
def Access.wellFormed : Access → Bool
  | .read r =>
    match regOfNumber r with
    | some .cmd => false
    | some _ => true
    | none => false
  | .write r v =>
    match regOfNumber r with
    | some .cmd => true
    | some reg => reg.readWrite && decide (v.toNat < 2 ^ reg.width)
    | none => false
  | .reset => true
  | .serve _ _ _ => true

end Machine

end Sys2Proof
end

