-- ==== Sys2Proof/Safety.lean ====
section
/-! DEFINITION. What counts as a good state and a good run, in the words claims use: the invariant of the machine, the host's
duties (R266 to R272), and the notions of R117, R120, R162 and R168 that statements speak of. No step uses this file. -/

namespace Sys2Proof.Machine

/-- A word that a parse can leave in `PRES_A` or `PRES_B`, or the reset value (R35, U10): `CLASS` is `NONE` in the zero word
only, `ECCOUT` 3 and `BITPOS` 16 to 31 are never produced, the reserved bits are 0, and each field is 0 where R35 says so. -/
structure PresLegal (w : Word) : Prop where
  classNone : w.extractLsb' 0 2 = 0#2 → w = 0#32
  eccout : w.extractLsb' 2 2 ≠ 3#2
  bitposTop : w.getLsbD 8 = false
  reserved : w.extractLsb' 9 7 = 0#7
  blankNoEcc : w.extractLsb' 0 2 = 1#2 → w = 1#32
  bitposOnlyCorrected : w.extractLsb' 2 2 ≠ 1#2 → w.extractLsb' 4 5 = 0#5
  indexOnlyIndex : w.extractLsb' 0 2 ≠ 3#2 → w.extractLsb' 16 16 = 0#16

/-- The invariant: both sparse memories are canonical, every mapped slot is below `NACT` (R70), there is no size without a
map (R29, R50), no map above `MAP_MAX` (R200), `FCAUSE` and `BRES` agree with `FATAL` (R26, R230), and the reserved
bits of the result registers are 0 (R34, R35). -/
structure StateInv (s : State) : Prop where
  sourcesCanonical : Memory.wf s.sources
  mapCanonical : ∀ m, s.map = some m → Sparse.wf m
  mapInRange : ∀ m, s.map = some m → ∀ p ∈ m, p.1 < s.nact.toNat
  noSizeWithoutMap : s.map = none → s.nact = 0#17
  sizeWithinMax : s.nact.toNat ≤ s.config.mapMax
  fatalHasCause : s.fatal = true ↔ s.fcause ≠ .noCause
  mismatchVerdict : s.fcause = .mismatch ↔ s.bres = .fatalMismatch
  duplicateVerdict : s.fcause = .duplicate ↔ s.bres = .fatalDup
  ioVerdict : s.fcause = .io ↔ s.bres = .fatalIo
  presALegal : PresLegal s.presA
  presBLegal : PresLegal s.presB
  reshReserved : s.resh.extractLsb' 16 15 = 0#15

/-- The port answers every read: the named premise of R276 and U6. -/
def State.portAnswersAll (s : State) : Prop := PortAnswer.silent ∉ s.portAnswers

/-- The port serves every request it is asked for that lies in its source: no `IoError` for any other reason (R62). -/
def State.portFaithful (s : State) : Prop := ∀ a ∈ s.portAnswers, a = PortAnswer.serve

/-- Host duty R266: `SRCLEN` is the length of the source the port serves under `SRCID`. -/
def State.lengthTruthful (s : State) : Prop :=
  ∀ off, (s.sources.byteAt s.srcid off).isSome = true ↔ off < s.sourceLength

/-- Host duty of D35, U7 and U8: a program touches no reserved number and relies on no dropped bit. -/
def disciplined (p : List Access) : Prop := ∀ a ∈ p, a.wellFormed = true

/-- Host duty R268: a program leaves the sources as they are. -/
def sourcesFixed (p : List Access) : Prop := ∀ src off byte, Access.serve src off byte ∉ p

/-- Host duty R267: the sources of a run have different ids. -/
def distinctIds (srcs : List (BitVec 16 × BitVec 46)) : Prop := (srcs.map Prod.fst).Nodup

/-- Host duty R269: a program does not change the mode. -/
def modeFixed (p : List Access) : Prop := ∀ v, wr .cfg v ∉ p

/-- Host duties R208 and R270: a program that consumes the map issues nothing that writes it. -/
def readOutOnly (p : List Access) : Prop :=
  cmd .mapinit ∉ p ∧ cmd .blkclaim ∉ p ∧ cmd .blkscan ∉ p ∧ cmd .srcscan ∉ p

/-- A safe run ends without a fatal condition and without a fault: its map may be consumed (R208). -/
def safeEnd (o : Out) : Prop := ∃ t, o = .next t ∧ t.mapConsumable = true

/-! The codec's notions. -/

/-- `D_p` of R117 and R120: the syndrome when exactly data bit `p` is wrong, `{p[3], ~p[3], S_b[5:0]}` with `b = p[2:0]`. -/
def dataSyndrome (p : Fin 16) : Byte :=
  (BitVec.ofBool (decide (8 ≤ p.val)) ++
    (BitVec.ofBool (!decide (8 ≤ p.val)) ++ (singleBitImage (Fin.ofNat 8 p.val)).extractLsb' 0 6) : BitVec (1 + (1 + 6)))

/-- The protected field with bit `j` flipped, the 24 bits counted from bit 0 of `d0` (0 to 7), then `d1` (8 to 15), then
the checksum (16 to 23); 0 to 15 are the positions of R114. -/
def flipField (j : Fin 24) (f : Byte × Byte × Byte) : Byte × Byte × Byte :=
  if j.val < 8 then (f.1 ^^^ (1#8 <<< j.val), f.2.1, f.2.2)
  else if j.val < 16 then (f.1, f.2.1 ^^^ (1#8 <<< (j.val - 8)), f.2.2)
  else (f.1, f.2.1, f.2.2 ^^^ (1#8 <<< (j.val - 16)))

/-- The codeword of a data pair (R117). -/
def codeword (T : Byte → BitVec 7) (d0 d1 : Byte) : Byte × Byte × Byte := (d0, d1, eccDecode T d0 d1)

/-- The protected field of a record (R140). -/
def fieldOf (S : SpareRecord) : Byte × Byte × Byte := (S[13], S[14], S[15])

/-- The field is one of the two that read as blank (R141 step 1). -/
def blankField (f : Byte × Byte × Byte) : Prop := f = (0x00#8, 0x00#8, 0x00#8) ∨ f = (0xFF#8, 0xFF#8, 0xFF#8)

/-! The result words, field by field. -/

/-- `RES` shows a correction that used `computed` (R34). -/
structure ResShows (w : Word) (c : Correction) (computed : Byte) : Prop where
  outcome : w.extractLsb' 0 2 = c.out.code
  bitpos : w.extractLsb' 2 5 = c.pos.setWidth 5
  zero : w.getLsbD 7 = false
  d0 : w.extractLsb' 8 8 = c.d0
  d1 : w.extractLsb' 16 8 = c.d1
  computed : w.extractLsb' 24 8 = computed

/-- `PRES_A` or `PRES_B` shows a parse (R35). -/
structure PresShows (w : Word) (p : ParseResult) : Prop where
  cls : w.extractLsb' 0 2 = p.cls.code
  eccout : w.extractLsb' 2 2 = p.out.code
  bitpos : w.extractLsb' 4 5 = p.pos.setWidth 5
  reserved : w.extractLsb' 9 7 = 0#7
  index : w.extractLsb' 16 16 = p.idx

/-! The builder's notions. -/

/-- Steps 2 to 5 go on with an index (R162). -/
def resolvesTo (a b : ParseResult) (idx : BitVec 16) : Prop :=
  (a.cls = .index ∧ b.cls = .index ∧ a.idx = idx ∧ b.idx = idx) ∨
  (a.cls = .index ∧ b.cls = .invalid ∧ a.idx = idx) ∨
  (a.cls = .invalid ∧ b.cls = .index ∧ b.idx = idx)

/-- Where steps 2 to 5 would lead for block `i` of the current source, from the bytes the port serves; `none` if a copy
is not served. -/
def State.blockVerdict (s : State) (i : Nat) : Option Resolution :=
  match s.sources.record s.srcid (offA s.sourceLength i), s.sources.record s.srcid (offB s.sourceLength i) with
  | some ra, some rb => some (reconcile (parse s.config.ecc ra s.cfg) (parse s.config.ecc rb s.cfg))
  | _, _ => none

/-- The host's own loop over blocks: write the cursor, issue `BLKSCAN`, stop at the first fatal condition. -/
def blkscanEach : List Nat → State → Out
  | [], s => .next s
  | i :: rest, s =>
    match exec .blkscan (s.setCursor (BitVec.ofNat 32 i)) with
    | .next t => if t.fatal = true then .next t else blkscanEach rest t
    | .fault r => .fault r
    | .refused r => .refused r

end Sys2Proof.Machine
end

