-- ==== Sys2Proof/Certificates/Slice0/Obligations.lean ====
section
/-! DEFINITION. The statements for the provers. Each docstring names the rules of the spec it formalises, and the assumption-log
entry where the statement rests on a field that is the model's own. -/

open Sys2Proof Sys2Proof.Machine

/-! ## Encoding and the host's accesses -/

/-- R90, R92: a word encodes the command with opcode c exactly when it is c, and the encoder's words decode. -/
def Obligations.DecodeEncodeAgree : Prop :=
  (∀ (w : Word) (i : Instr), decode w = .ok i ↔ w = (opcode i).setWidth 32) ∧ ∀ i, decode (encode i) = .ok i

/-- R92: the eleven command words, each written out, decode to the commands the table names. -/
def Obligations.CommandWordsDecode : Prop :=
  decode 0x00000001#32 = .ok .eccdec ∧ decode 0x00000002#32 = .ok .ecccor ∧ decode 0x00000003#32 = .ok .eccfix ∧
  decode 0x00000010#32 = .ok .parse ∧ decode 0x00000020#32 = .ok .loadsp ∧ decode 0x00000021#32 = .ok .blkclaim ∧
  decode 0x00000022#32 = .ok .blkscan ∧ decode 0x00000023#32 = .ok .srcscan ∧ decode 0x00000030#32 = .ok .mapinit ∧
  decode 0x00000031#32 = .ok .mapget ∧ decode 0x0000007F#32 = .ok .srst ∧
  decode 0x00000101#32 = .error .reservedBits ∧ decode 0x00000000#32 = .error .unknownOpcode

/-- R25, R91: when the host's next access writes the word of a command to `CMD`, the step is that command, whole, on the
state in which the access is no longer to come. The list of accesses is the model's own (log entry 1). -/
def Obligations.StepRunsDecodedCommand : Prop :=
  ∀ (s : State) (w : Word) (rest : List Access) (i : Instr), s.pending = .write 0 w :: rest → decode w = .ok i →
    i.wellFormed = true → step s = exec i { s with pending := rest }

/-- R8, R23, R61: a step is the host's next access, whichever it is, and with none to come the block idles; a read has its one
effect, and so has a change of what the port serves. The list of accesses, the list of replies and the idle step are the
model's own (log entries 1 and 2). -/
def Obligations.HostAccessSteps : Prop :=
  ∀ (s : State) (rest : List Access),
    (s.pending = [] → step s = .next s) ∧
    (∀ a, s.pending = a :: rest → step s = perform a { s with pending := rest }) ∧
    (∀ r, s.pending = .read r :: rest →
      step s = .next { s with pending := rest, replies := s.replies ++ [regRead s r] }) ∧
    (∀ src off byte, s.pending = .serve src off byte :: rest →
      ∃ t, step s = .next t ∧ t = { s with pending := rest, sources := t.sources } ∧
        ∀ src' off', t.sources.byteAt src' off' =
          if src' = src ∧ off' = off.toNat then byte else s.sources.byteAt src' off')

/-- R96: every word that is none of the eleven, written to `CMD`, is refused, as `HALTED` in the fatal state and as `ILLEGAL`
otherwise, and has no other effect. -/
def Obligations.IllegalWordRefused : Prop :=
  ∀ (s : State) (w : Word), (∀ i, w ≠ encode i) →
    regWrite 0 w s = .next { s with cerr := if s.fatal = true then .halted else .illegal }

/-- R93, R232, R236: in the fatal state every word but `SRST`'s is refused as `HALTED`, legal or not. -/
def Obligations.FatalStateRefusesCommands : Prop :=
  ∀ (s : State) (w : Word) (rest : List Access), s.pending = .write 0 w :: rest → s.fatal = true →
    w ≠ 0x0000007F#32 → step s = .next { s with pending := rest, cerr := .halted }

/-- R232: no step but a hardware reset and `SRST` leaves the fatal state, and until then the cause, the verdict, the map,
its size, the parses and the diagnostics stay as the fatal condition left them. -/
def Obligations.FatalStateIsSticky : Prop :=
  ∀ s t : State, step s = .next t → s.fatal = true →
    (∀ rest, s.pending ≠ .reset :: rest) → (∀ rest, s.pending ≠ .write 0 0x0000007F#32 :: rest) →
    t.fatal = true ∧ t.fcause = s.fcause ∧ t.bres = s.bres ∧ t.map = s.map ∧ t.nact = s.nact ∧
      t.presA = s.presA ∧ t.presB = s.presB ∧ t.res = s.res ∧ t.resh = s.resh ∧ t.diag = s.diag ∧
      t.portLog = s.portLog

/-- R93 test 3, R42: the four map commands are refused as `NOMAP` while there is no map, and change nothing else. -/
def Obligations.NoMapRefused : Prop :=
  ∀ (s : State) (i : Instr), i = .blkclaim ∨ i = .blkscan ∨ i = .srcscan ∨ i = .mapget → s.fatal = false →
    s.mapv = false → exec i s = .next { s with cerr := .nomap }

/-- R93 test 4, R94, R236: the four operand checks, each after the tests before it, and nothing else changes. -/
def Obligations.OperandRefused : Prop :=
  ∀ s : State, s.fatal = false →
    (s.sourceLength / 528 / 32 ≤ s.blkidx.toNat → exec .loadsp s = .next { s with cerr := .operand }) ∧
    (s.mapv = true → s.sourceLength / 528 / 32 ≤ s.blkidx.toNat →
      exec .blkscan s = .next { s with cerr := .operand }) ∧
    (s.config.mapMax < s.mapsize.toNat → exec .mapinit s = .next { s with cerr := .operand }) ∧
    (s.mapv = true → s.nact.toNat ≤ s.opa.toNat → exec .mapget s = .next { s with cerr := .operand })

/-- R93, R235: a command that ends with a command error has changed `CERR` and nothing else, `FATAL` included; and a
command that raises a fatal condition leaves `CERR` at `OK`. -/
def Obligations.CommandErrorChangesOnlyCerr : Prop :=
  ∀ (i : Instr) (s t : State), exec i s = .next t →
    (t.cerr ≠ .ok → t = { s with cerr := t.cerr }) ∧ (s.fatal = false → t.fatal = true → t.cerr = .ok)

/-! ## Reset -/

/-- R202: `SRST` is accepted in every state, leaves every register at its reset value and no map, and neither erases nor
emits a record. What else stays is the model's own (log entry 6). -/
def Obligations.SrstResetsBlock : Prop :=
  ∀ s : State, ∃ t, exec .srst s = .next t ∧
    (∀ r : Fin 64, regRead t r = if r = 3 then 0x00003000#32 else 0#32) ∧
    t.fatal = false ∧ t.fcause = .noCause ∧ t.cerr = .ok ∧ t.bres = .noVerdict ∧ t.mapv = false ∧ t.diag = s.diag ∧
    t.sources = s.sources ∧ t.portAnswers = s.portAnswers ∧ t.portLog = s.portLog ∧ t.pending = s.pending ∧
    t.replies = s.replies ∧ t.config = s.config

/-- R260: the hardware reset, an access between commands, and `SRST` lead every state to the same state, one in which every
register reads its reset value. -/
def Obligations.HardwareResetIsSrst : Prop :=
  ∀ s : State, ∃ t, perform .reset s = .next t ∧ exec .srst s = .next t ∧
    ∀ r : Fin 64, regRead t r = regRead State.reset r

/-- R50, R261: after reset every register reads 0 but `MAPSIZE`, which reads 0x3000; there is no map and no fatal state. -/
def Obligations.ResetRegisterValues : Prop :=
  (∀ r : Fin 64, regRead State.reset r = if r = 3 then 0x00003000#32 else 0#32) ∧ State.reset.mapv = false ∧
    State.reset.fatal = false ∧ State.reset.cfg = 0#1

/-- The invariant holds at reset; what reset leaves in the fields of the model's own is log entry 12. -/
def Obligations.ResetSatisfiesInv : Prop := StateInv State.reset

/-- Every step keeps the invariant: canonical memories (log entries 3 and 4), a map within `NACT` and `MAP_MAX` (R70,
R200), `FCAUSE` and `BRES` in step with `FATAL` (R230), reserved bits of the results at 0 (R34, R35). -/
def Obligations.StepKeepsInv : Prop := ∀ s t : State, StateInv s → step s = .next t → StateInv t

/-! ## The ECC codec -/

/-- R113: `ECCDEC` writes the checksum of `OPA[7:0]`, `OPA[15:8]` to `RES` and 0 to `RESH`, and changes nothing else. -/
def Obligations.EccdecResult : Prop :=
  ∀ s : State, s.fatal = false →
    exec .eccdec s = .next { s with
      cerr := .ok
      res := (eccDecode s.config.ecc (s.opa.extractLsb' 0 8) (s.opa.extractLsb' 8 8)).setWidth 32
      resh := 0#32 }

/-- R112, second form: for every table with the flag property (P2 of R111), `decode` is the inverse of the two byte parities in bits 7
and 6 above the combined column parity. -/
def Obligations.EccDecodeFormula : Prop :=
  ∀ T : Byte → BitVec 7, (∀ x, (T x).getLsbD 6 = parity8 x) → ∀ b0 b1 : Byte,
    eccDecode T b0 b1 =
      0xFF#8 ^^^ (((BitVec.ofBool (parity8 b1)).setWidth 8 <<< 7) ||| ((BitVec.ofBool (parity8 b0)).setWidth 8 <<< 6) |||
        ((T b0 ^^^ T b1).extractLsb' 0 6).setWidth 8)

/-- R115: `ECCCOR` leaves in `RES` the fields of `correct` on the four bytes of `OPA`, 0 in `RESH`, and changes nothing
else. -/
def Obligations.EcccorResult : Prop :=
  ∀ s : State, s.fatal = false → ∃ w, exec .ecccor s = .next { s with cerr := .ok, res := w, resh := 0#32 } ∧
    ResShows w (correct (s.opa.extractLsb' 0 8) (s.opa.extractLsb' 8 8) (s.opa.extractLsb' 16 8) (s.opa.extractLsb' 24 8))
      (s.opa.extractLsb' 24 8)

/-- R116: `ECCFIX` computes the checksum of the pair and corrects against the stored byte; `OPA[31:24]` is ignored; nothing
else changes. -/
def Obligations.EccfixResult : Prop :=
  ∀ s : State, s.fatal = false → ∃ w, exec .eccfix s = .next { s with cerr := .ok, res := w, resh := 0#32 } ∧
    ResShows w (correct (s.opa.extractLsb' 0 8) (s.opa.extractLsb' 8 8) (s.opa.extractLsb' 16 8)
        (eccDecode s.config.ecc (s.opa.extractLsb' 0 8) (s.opa.extractLsb' 8 8)))
      (eccDecode s.config.ecc (s.opa.extractLsb' 0 8) (s.opa.extractLsb' 8 8))

/-- R114, R115, R120: the outcome depends on the syndrome alone: `Ok` for 0 and the eight powers of two, `Corrected` at p
for the sixteen `D_p`, which flips bit p of the pair and no other, and `Uncorrectable` with the pair unchanged for every
other. -/
def Obligations.CorrectOutcomeBySyndrome : Prop :=
  ∀ d0 d1 st co : Byte,
    ((st ^^^ co = 0#8 ∨ ∃ q : Fin 8, st ^^^ co = 1#8 <<< q.val) → correct d0 d1 st co = ⟨.ok, 0#4, d0, d1⟩) ∧
    (∀ p : Fin 16, st ^^^ co = dataSyndrome p →
      correct d0 d1 st co = ⟨.corrected, BitVec.ofNat 4 p.val, (flipField (p.castLE (by decide)) (d0, d1, st)).1,
        (flipField (p.castLE (by decide)) (d0, d1, st)).2.1⟩) ∧
    ((st ^^^ co ≠ 0#8 ∧ (∀ q : Fin 8, st ^^^ co ≠ 1#8 <<< q.val) ∧ ∀ p : Fin 16, st ^^^ co ≠ dataSyndrome p) →
      correct d0 d1 st co = ⟨.uncorrectable, 0#4, d0, d1⟩)

/-- R117 (a), (b), for every table with P1 to P3: a codeword is `Ok` and unchanged, and any one flipped data bit is
corrected back, its position reported. -/
def Obligations.SingleDataFlipCorrected : Prop :=
  ∀ T : Byte → BitVec 7, EccLaws T → ∀ d0 d1 : Byte,
    correct d0 d1 (eccDecode T d0 d1) (eccDecode T d0 d1) = ⟨.ok, 0#4, d0, d1⟩ ∧
    ∀ p : Fin 16, ∀ e0 e1 ck : Byte, (e0, e1, ck) = flipField (p.castLE (by decide)) (codeword T d0 d1) →
      correct e0 e1 ck (eccDecode T e0 e1) = ⟨.corrected, BitVec.ofNat 4 p.val, d0, d1⟩

/-- R117 (c), for every table: a flipped checksum bit is tolerated as `Ok` and the data is left intact (conflict C2). -/
def Obligations.ChecksumFlipToleratedAsOk : Prop :=
  ∀ (T : Byte → BitVec 7) (d0 d1 : Byte) (j : Fin 24), 16 ≤ j.val →
    ∀ e0 e1 ck : Byte, (e0, e1, ck) = flipField j (codeword T d0 d1) →
      correct e0 e1 ck (eccDecode T e0 e1) = ⟨.ok, 0#4, d0, d1⟩

/-- R117 (d), for every table with P1 to P3: any two flipped bits of the 24-bit field are detected, and the data is not
changed. -/
def Obligations.DoubleErrorDetected : Prop :=
  ∀ T : Byte → BitVec 7, EccLaws T → ∀ (d0 d1 : Byte) (i j : Fin 24), i ≠ j →
    ∀ e0 e1 ck : Byte, (e0, e1, ck) = flipField i (flipField j (codeword T d0 d1)) →
      correct e0 e1 ck (eccDecode T e0 e1) = ⟨.uncorrectable, 0#4, e0, e1⟩

/-- R116, R117 (b): the machine's `ECCFIX` on a codeword with one flipped data bit, in a block whose table has P1 to P3. -/
def Obligations.EccfixRepairsCodeword : Prop :=
  ∀ (s : State) (d0 d1 : Byte) (p : Fin 16), EccLaws s.config.ecc → s.fatal = false →
    (s.opa.extractLsb' 0 8, s.opa.extractLsb' 8 8, s.opa.extractLsb' 16 8) =
      flipField (p.castLE (by decide)) (codeword s.config.ecc d0 d1) →
    ∃ t, exec .eccfix s = .next t ∧ t.res.extractLsb' 0 2 = 1#2 ∧ t.res.extractLsb' 2 5 = BitVec.ofNat 5 p.val ∧
      t.res.extractLsb' 8 8 = d0 ∧ t.res.extractLsb' 16 8 = d1

/-- R110, R111: P1 to P3 leave one table only, the formula's. -/
def Obligations.TableForcedByLaws : Prop := ∀ T : Byte → BitVec 7, EccLaws T → ∀ x, T x = eccEntry x

/-- R111 P4: the sixteen bytes whose entry is 0, and no other. -/
def Obligations.TableZeroEntries : Prop :=
  ∀ x : Byte, defaultConfig.ecc x = 0#7 ↔
    x ∈ [0x00#8, 0x0F#8, 0x33#8, 0x3C#8, 0x55#8, 0x5A#8, 0x66#8, 0x69#8,
      0x96#8, 0x99#8, 0xA5#8, 0xAA#8, 0xC3#8, 0xCC#8, 0xF0#8, 0xFF#8]

/-! ## The spare-metadata parser -/

/-- R142: `PARSE` leaves the parse of the buffer that `OPA[0]` selects in that buffer's `PRES` register and changes nothing
else. -/
def Obligations.ParseCommandResult : Prop :=
  ∀ s : State, s.fatal = false →
    (s.opa.getLsbD 0 = false → ∃ w, exec .parse s = .next { s with cerr := .ok, presA := w } ∧
      PresShows w (parse s.config.ecc s.spa s.cfg)) ∧
    (s.opa.getLsbD 0 = true → ∃ w, exec .parse s = .next { s with cerr := .ok, presB := w } ∧
      PresShows w (parse s.config.ecc s.spb s.cfg))

/-- R141 step 1, R143: a record is `BLANK` exactly when its protected field is all 0x00 or all 0xFF, whatever the table and
the mode, and then the outcome is `Ok` at position 0 with index 0. -/
def Obligations.ParseBlankIff : Prop :=
  ∀ (T : Byte → BitVec 7) (S : SpareRecord) (variant : BitVec 1),
    ((parse T S variant).cls = .blank ↔ blankField (fieldOf S)) ∧
    (blankField (fieldOf S) → parse T S variant = ⟨.blank, 0#16, .ok, 0#4⟩)

/-- R147: the two ways to be `INVALID`, in each mode; the builder treats both alike. -/
def Obligations.ParseInvalidIff : Prop :=
  (∀ (T : Byte → BitVec 7) (S : SpareRecord) (variant : BitVec 1),
    ((parse T S variant).cls = .invalid ↔
      ((parse T S variant).out = .uncorrectable ∨
        (variant = 0#1 ∧ ¬ blankField (fieldOf S) ∧
          ((correct S[13] S[14] S[15] (eccDecode T S[13] S[14])).out = .ok ∨
            (correct S[13] S[14] S[15] (eccDecode T S[13] S[14])).out = .corrected) ∧
          (correct S[13] S[14] S[15] (eccDecode T S[13] S[14])).d0.getLsbD 7 = false)))) ∧
  ∀ a a' b : ParseResult, a.cls = .invalid → a'.cls = .invalid →
    reconcile a b = reconcile a' b ∧ reconcile b a = reconcile b a'

/-- R144: in standard mode the codeword of `{1, index, x}` parses to the index, with either value of bit 0, unless it is
the all-ones field. -/
def Obligations.StandardIndexRoundTrip : Prop :=
  ∀ (T : Byte → BitVec 7) (S : SpareRecord) (index : BitVec 14) (x : BitVec 1) (v : BitVec 16),
    v = (1#1 ++ (index ++ x) : BitVec (1 + (14 + 1))) →
    fieldOf S = codeword T (v.extractLsb' 8 8) (v.extractLsb' 0 8) → fieldOf S ≠ (0xFF#8, 0xFF#8, 0xFF#8) →
    parse T S 0#1 = ⟨.index, index.setWidth 16, .ok, 0#4⟩

/-- R145: in alternate mode the codeword of any 16-bit value parses to that value, unless it reads as blank. -/
def Obligations.AlternateIndexRoundTrip : Prop :=
  ∀ (T : Byte → BitVec 7) (S : SpareRecord) (v : BitVec 16),
    fieldOf S = codeword T (v.extractLsb' 8 8) (v.extractLsb' 0 8) → ¬ blankField (fieldOf S) →
    parse T S 1#1 = ⟨.index, v, .ok, 0#4⟩

/-- R141, R144: one flipped data bit, the marker bit among them, is corrected before the marker is tested: the index is the
one that was written. -/
def Obligations.ParseRepairsMarker : Prop :=
  ∀ (T : Byte → BitVec 7) (S : SpareRecord) (index : BitVec 14) (x : BitVec 1) (v : BitVec 16) (p : Fin 16), EccLaws T →
    v = (1#1 ++ (index ++ x) : BitVec (1 + (14 + 1))) →
    fieldOf S = flipField (p.castLE (by decide)) (codeword T (v.extractLsb' 8 8) (v.extractLsb' 0 8)) →
    ¬ blankField (fieldOf S) →
    parse T S 0#1 = ⟨.index, index.setWidth 16, .corrected, BitVec.ofNat 4 p.val⟩

/-- R36, R146: bytes 0 to 12 of the two records take no part: with other bytes there `BLKCLAIM` does the same, and the
buffers stay as they are. -/
def Obligations.SpareBytesIgnored : Prop :=
  ∀ (s t : State) (a b : SpareRecord), fieldOf a = fieldOf s.spa → fieldOf b = fieldOf s.spb →
    exec .blkclaim s = .next t → exec .blkclaim { s with spa := a, spb := b } = .next { t with spa := a, spb := b }

/-! ## The block-map builder -/

/-- R161, R66, R69: `LOADSP` of an existing block whose two records the port serves fills both buffers with them, in
ascending byte order, by two requests, copy A first, and changes nothing else. The log of requests and the list of answers
are the model's own (log entries 2 and 5). -/
def Obligations.LoadspFillsBuffers : Prop :=
  ∀ (s : State) (a b : SpareRecord), s.fatal = false → s.blkidx.toNat < s.sourceLength / 528 / 32 → s.portFaithful →
    (∀ k : Fin 16, s.sources.byteAt s.srcid (s.sourceLength / 528 * 512 + s.blkidx.toNat * 512 + k.val) = some a[k]) →
    (∀ k : Fin 16,
      s.sources.byteAt s.srcid (s.sourceLength / 528 * 512 + s.blkidx.toNat * 512 + 0x1F0 + k.val) = some b[k]) →
    exec .loadsp s = .next { s with
      cerr := .ok
      bres := .noVerdict
      spa := a
      spb := b
      portAnswers := s.portAnswers.tail.tail
      portLog := s.portLog ++
        [⟨s.srcid, s.sourceLength / 528 * 512 + s.blkidx.toNat * 512⟩,
         ⟨s.srcid, s.sourceLength / 528 * 512 + s.blkidx.toNat * 512 + 0x1F0⟩] }

/-- R161, R226, R69, R62: a read that fails is fatal at once, whether the host answers `IoError` or a byte of the record is not
there: `FATAL`, `FCAUSE` `IO`, `BRES` `FATAL_IO`, no buffer written, even where copy A came and copy B failed, no record
emitted, and no read of copy B after a failed copy A. That a request uses up one of the host's answers and stands in the log
of requests are the model's own (log entries 5 and 2). -/
def Obligations.LoadspIoFailure : Prop :=
  ∀ s : State, s.fatal = false → s.blkidx.toNat < numBlocks s.sourceLength →
    (s.portAnswers.head? ≠ some .silent →
      (s.portAnswers.head? = some .ioError ∨
        ∃ k, k < 16 ∧ s.sources.byteAt s.srcid (offA s.sourceLength s.blkidx.toNat + k) = none) →
      exec .loadsp s = .next { s with
        cerr := .ok, bres := .fatalIo, fatal := true, fcause := .io
        portAnswers := s.portAnswers.tail
        portLog := s.portLog ++ [⟨s.srcid, offA s.sourceLength s.blkidx.toNat⟩] }) ∧
    ((s.portAnswers.head? = none ∨ s.portAnswers.head? = some .serve) →
      (∀ k, k < 16 → (s.sources.byteAt s.srcid (offA s.sourceLength s.blkidx.toNat + k)).isSome = true) →
      s.portAnswers.tail.head? ≠ some .silent →
      (s.portAnswers.tail.head? = some .ioError ∨
        ∃ k, k < 16 ∧ s.sources.byteAt s.srcid (offB s.sourceLength s.blkidx.toNat + k) = none) →
      exec .loadsp s = .next { s with
        cerr := .ok, bres := .fatalIo, fatal := true, fcause := .io
        portAnswers := s.portAnswers.tail.tail
        portLog := s.portLog ++ [⟨s.srcid, offA s.sourceLength s.blkidx.toNat⟩,
          ⟨s.srcid, offB s.sourceLength s.blkidx.toNat⟩] })

/-- U6, R276: a port that never answers stops the machine in the command that reads (log entry 5). -/
def Obligations.SilentPortStops : Prop :=
  ∀ s : State, s.fatal = false → s.blkidx.toNat < numBlocks s.sourceLength → s.portAnswers.head? = some .silent →
    exec .loadsp s = .fault .portSilent ∧
      (s.mapv = true → exec .blkscan s = .fault .portSilent ∧ exec .srcscan s = .fault .portSilent)

/-- R162 rows for `BLANK` and for two `INVALID`, R164: the block is skipped, silently, with both parses in their registers. -/
def Obligations.BlkclaimSkips : Prop :=
  ∀ (s : State) (a b : ParseResult), s.fatal = false → s.mapv = true → a = parse s.config.ecc s.spa s.cfg →
    b = parse s.config.ecc s.spb s.cfg →
    (a.cls = .blank ∨ b.cls = .blank →
      exec .blkclaim s = .next { s with cerr := .ok, presA := a.word, presB := b.word, bres := .skipBlank }) ∧
    (a.cls = .invalid → b.cls = .invalid →
      exec .blkclaim s = .next { s with cerr := .ok, presA := a.word, presB := b.word, bres := .skipInvalid })

/-- R163 step 5, R224: two valid copies with different indices are fatal, whatever `NACT` and the map hold (R233); the
record is emitted and no slot is touched. -/
def Obligations.BlkclaimMismatch : Prop :=
  ∀ (s : State) (a b : ParseResult), s.fatal = false → s.mapv = true → a = parse s.config.ecc s.spa s.cfg →
    b = parse s.config.ecc s.spb s.cfg → a.cls = .index → b.cls = .index → a.idx ≠ b.idx →
    exec .blkclaim s = .next { s with
      cerr := .ok, presA := a.word, presB := b.word, bres := .fatalMismatch, fatal := true, fcause := .mismatch
      diag := s.diag ++ [⟨.mismatch, s.srcid, s.blkidx, a.idx, b.idx, 0#16, 0#32⟩] }

/-- R163 step 6, R167, R223: a resolved index at or above `NACT` is dropped with a record; the run goes on. -/
def Obligations.BlkclaimDropsOutOfRange : Prop :=
  ∀ (s : State) (a b : ParseResult) (idx : BitVec 16), s.fatal = false → s.mapv = true →
    a = parse s.config.ecc s.spa s.cfg → b = parse s.config.ecc s.spb s.cfg → resolvesTo a b idx →
    s.nact.toNat ≤ idx.toNat →
    exec .blkclaim s = .next { s with
      cerr := .ok, presA := a.word, presB := b.word, bres := .dropRange
      diag := s.diag ++ [⟨.range, s.srcid, s.blkidx, idx, 0#16, 0#16, 0#32⟩] }

/-- R163 step 7, R166, R225: a resolved index whose slot is mapped is a fatal duplicate; the record names the earlier
claimant and the slot keeps it. -/
def Obligations.BlkclaimDuplicate : Prop :=
  ∀ (s : State) (a b : ParseResult) (idx : BitVec 16) (m : SlotMap) (p : Slot), s.fatal = false → s.map = some m →
    a = parse s.config.ecc s.spa s.cfg → b = parse s.config.ecc s.spb s.cfg → resolvesTo a b idx →
    idx.toNat < s.nact.toNat → Sparse.get m idx.toNat = some p →
    exec .blkclaim s = .next { s with
      cerr := .ok, presA := a.word, presB := b.word, bres := .fatalDup, fatal := true, fcause := .duplicate
      diag := s.diag ++ [⟨.duplicate, s.srcid, s.blkidx, idx, 0#16, p.src, p.blk⟩] }

/-- R163 last line, R164: a resolved index in range whose slot is unmapped is claimed for (`SRCID`, `BLKIDX`); that one slot
changes and no other, no record is emitted, no source byte and no other register changes. -/
def Obligations.BlkclaimClaims : Prop :=
  ∀ (s : State) (a b : ParseResult) (idx : BitVec 16) (m : SlotMap), s.fatal = false → s.map = some m →
    a = parse s.config.ecc s.spa s.cfg → b = parse s.config.ecc s.spb s.cfg → resolvesTo a b idx →
    idx.toNat < s.nact.toNat → Sparse.get m idx.toNat = none →
    ∃ m', exec .blkclaim s = .next { s with
        cerr := .ok, presA := a.word, presB := b.word, bres := .claimed, map := some m' } ∧
      Sparse.get m' idx.toNat = some ⟨s.srcid, s.blkidx⟩ ∧
      ∀ j, j ≠ idx.toNat → Sparse.get m' j = Sparse.get m j

/-- R165: `BLKSCAN` of an existing block whose records the port serves and resolve to a free slot in range loads both
buffers and claims the slot; the cursor stays. That each of its two requests uses up one of the host's answers is the
model's own (log entry 5). -/
def Obligations.BlkscanClaimsBlock : Prop :=
  ∀ (s : State) (ra rb : SpareRecord) (idx : BitVec 16), s.fatal = false → s.mapv = true →
    s.blkidx.toNat < numBlocks s.sourceLength → s.portFaithful →
    s.sources.record s.srcid (offA s.sourceLength s.blkidx.toNat) = some ra →
    s.sources.record s.srcid (offB s.sourceLength s.blkidx.toNat) = some rb →
    resolvesTo (parse s.config.ecc ra s.cfg) (parse s.config.ecc rb s.cfg) idx → idx.toNat < s.nact.toNat →
    s.slotAt idx.toNat = none →
    ∃ t, exec .blkscan s = .next t ∧
      t = { s with
        cerr := .ok, bres := .claimed, spa := ra, spb := rb
        presA := (parse s.config.ecc ra s.cfg).word, presB := (parse s.config.ecc rb s.cfg).word
        portAnswers := s.portAnswers.tail.tail, portLog := t.portLog, map := t.map } ∧
      t.slotAt idx.toNat = some ⟨s.srcid, s.blkidx⟩ ∧ ∀ j, j ≠ idx.toNat → t.slotAt j = s.slotAt j

/-- R165, R92: on an existing block `BLKSCAN` is `LOADSP` and then, unless that was fatal, `BLKCLAIM`. -/
def Obligations.BlkscanIsLoadThenClaim : Prop :=
  ∀ s u : State, s.fatal = false → s.mapv = true → s.blkidx.toNat < numBlocks s.sourceLength →
    exec .loadsp s = .next u →
    (u.fatal = true → exec .blkscan s = .next u) ∧ (u.fatal = false → exec .blkscan s = exec .blkclaim u)

/-- R168, R92: `SRCSCAN` is `BLKSCAN` for every block of the current source in ascending order, stopped by the first fatal
condition, with the cursor one past the last block at the end. -/
def Obligations.SrcscanIsIteratedBlkscan : Prop :=
  ∀ s : State, s.fatal = false → s.mapv = true →
    exec .srcscan s =
      match blkscanEach (List.range (numBlocks s.sourceLength))
          { s with cerr := .ok, bres := .noVerdict, blkidx := 0#32 } with
      | .next t =>
        .next (if t.fatal = true then t else { t with blkidx := BitVec.ofNat 32 (numBlocks s.sourceLength) })
      | .fault r => .fault r
      | .refused r => .refused r

/-- R168, R169: when the port serves every block's two records, no block's copies disagree, and no two blocks resolve to one
slot in range nor to a slot already taken, `SRCSCAN` completes with the cursor at `numBlocks`, each such block in its
slot, and every other slot as it was. -/
def Obligations.SrcscanBuildsMap : Prop :=
  ∀ s : State, s.fatal = false → s.mapv = true → s.portFaithful →
    (∀ i, i < numBlocks s.sourceLength → ∃ r, s.blockVerdict i = some r ∧ ∀ x y, r ≠ .mismatch x y) →
    (∀ i idx, i < numBlocks s.sourceLength → s.blockVerdict i = some (.goOn idx) → idx.toNat < s.nact.toNat →
      s.slotAt idx.toNat = none) →
    (∀ i j idx, i < j → j < numBlocks s.sourceLength → s.blockVerdict i = some (.goOn idx) →
      s.blockVerdict j = some (.goOn idx) → s.nact.toNat ≤ idx.toNat) →
    ∃ t, exec .srcscan s = .next t ∧ t.fatal = false ∧ t.cerr = .ok ∧
      t.blkidx.toNat = numBlocks s.sourceLength ∧
      (∀ i idx, i < numBlocks s.sourceLength → s.blockVerdict i = some (.goOn idx) → idx.toNat < s.nact.toNat →
        t.slotAt idx.toNat = some ⟨s.srcid, BitVec.ofNat 32 i⟩) ∧
      ∀ k, (∀ i idx, i < numBlocks s.sourceLength → s.blockVerdict i = some (.goOn idx) →
          idx.toNat < s.nact.toNat → idx.toNat ≠ k) → t.slotAt k = s.slotAt k

/-- R168, R231: an accepted `SRCSCAN` ends with the cursor at `numBlocks` when nothing was fatal, and on the offending block
otherwise: that block has been asked for and none beyond it. Every slot it claimed names this source and a block before the
cursor, every other slot is as it was; and the requests it has made, after those already logged, are for records of this
source's blocks up to the cursor, with both records of every block before the cursor among them. The log of requests is the
model's own (log entry 2). -/
def Obligations.SrcscanEndsPrecisely : Prop :=
  ∀ s t : State, s.fatal = false → s.mapv = true → exec .srcscan s = .next t →
    (t.fatal = true → t.blkidx.toNat < numBlocks s.sourceLength) ∧
    (t.fatal = false → t.blkidx.toNat = numBlocks s.sourceLength) ∧
    (∀ k, t.slotAt k = s.slotAt k ∨
      (s.slotAt k = none ∧ ∃ p, t.slotAt k = some p ∧ p.src = s.srcid ∧ p.blk.toNat < t.blkidx.toNat)) ∧
    ∃ l, t.portLog = s.portLog ++ l ∧
      (∀ q ∈ l, q.src = s.srcid ∧ ∃ i, i ≤ t.blkidx.toNat ∧ i < numBlocks s.sourceLength ∧
        (q.off = offA s.sourceLength i ∨ q.off = offB s.sourceLength i)) ∧
      (t.fatal = true → ⟨s.srcid, offA s.sourceLength t.blkidx.toNat⟩ ∈ l) ∧
      ∀ i, i < t.blkidx.toNat → ⟨s.srcid, offA s.sourceLength i⟩ ∈ l ∧ ⟨s.srcid, offB s.sourceLength i⟩ ∈ l

/-! ## The map -/

/-- R41, R9: within a run a mapped slot never changes, and a slot that becomes mapped names the current source; only
`MAPINIT`, the reset and the three claiming commands write the map at all. -/
def Obligations.SlotsArePermanent : Prop :=
  ∀ (i : Instr) (s t : State), exec i s = .next t → i ≠ .mapinit → i ≠ .srst →
    (∀ k p, s.slotAt k = some p → t.slotAt k = some p) ∧
    (∀ k p, s.slotAt k = none → t.slotAt k = some p → p.src = s.srcid) ∧
    (i ≠ .blkclaim → i ≠ .blkscan → i ≠ .srcscan → t.map = s.map)

/-- R24, column 'engine writes': every command but the reset leaves alone the registers that it does not write. -/
def Obligations.EngineWritesOnlyItsRegisters : Prop :=
  ∀ (i : Instr) (s t : State), exec i s = .next t → i ≠ .srst →
    (t.cfg = s.cfg ∧ t.mapsize = s.mapsize ∧ t.srcid = s.srcid ∧ t.srclenLo = s.srclenLo ∧ t.srclenHi = s.srclenHi ∧
      t.opa = s.opa ∧ t.config = s.config ∧ t.pending = s.pending ∧ t.replies = s.replies) ∧
    (i ≠ .mapinit → t.nact = s.nact) ∧
    (i ≠ .srcscan → t.blkidx = s.blkidx) ∧
    (i ≠ .eccdec → i ≠ .ecccor → i ≠ .eccfix → i ≠ .mapget → t.res = s.res ∧ t.resh = s.resh) ∧
    (i ≠ .parse → i ≠ .blkclaim → i ≠ .blkscan → i ≠ .srcscan → t.presA = s.presA ∧ t.presB = s.presB) ∧
    (i ≠ .loadsp → i ≠ .blkscan → i ≠ .srcscan →
      t.spa = s.spa ∧ t.spb = s.spb ∧ t.portLog = s.portLog ∧ t.portAnswers = s.portAnswers) ∧
    (i ≠ .loadsp → i ≠ .blkclaim → i ≠ .blkscan → i ≠ .srcscan → t.fatal = s.fatal ∧ t.fcause = s.fcause) ∧
    (i ≠ .loadsp → i ≠ .blkclaim → i ≠ .blkscan → i ≠ .srcscan → i ≠ .mapinit → t.bres = s.bres)

/-- R61: the block never writes to a source: after any command every byte of every source reads as before. -/
def Obligations.CommandsNeverWriteSources : Prop :=
  ∀ (i : Instr) (s t : State), exec i s = .next t →
    ∀ (src : BitVec 16) (off : Nat), t.sources.byteAt src off = s.sources.byteAt src off

/-- R44: the diagnostic stream is append-only: a command adds records at its end, all about the current source, at most one
unless it is `SRCSCAN`, none unless it is a claiming command. -/
def Obligations.DiagnosticsAppended : Prop :=
  ∀ (i : Instr) (s t : State), exec i s = .next t →
    ∃ d, t.diag = s.diag ++ d ∧ (∀ r ∈ d, r.src = s.srcid) ∧ (i ≠ .srcscan → d.length ≤ 1) ∧
      (i ≠ .blkclaim → i ≠ .blkscan → i ≠ .srcscan → d = [])

/-- R200: `MAPINIT`, whole: refused in the fatal state and for an N above `MAP_MAX`, else it latches N, leaves every slot
unmapped and the map valid, and changes nothing else. -/
def Obligations.MapinitEmptiesMap : Prop :=
  ∀ s : State,
    (s.fatal = true → exec .mapinit s = .next { s with cerr := .halted }) ∧
    (s.fatal = false → s.config.mapMax < s.mapsize.toNat → exec .mapinit s = .next { s with cerr := .operand }) ∧
    (s.fatal = false → s.mapsize.toNat ≤ s.config.mapMax →
      ∃ m, exec .mapinit s =
          .next { s with cerr := .ok, nact := s.mapsize, map := some m, bres := .noVerdict } ∧
        ∀ i, Sparse.get m i = none)

/-- R201: `MAPGET`, whole: refused in the fatal state, without a map, and for an index that is no slot; else it shows the
slot in `RES` and `RESH` and changes nothing else. -/
def Obligations.MapgetReadsSlot : Prop :=
  ∀ s : State,
    (s.fatal = true → exec .mapget s = .next { s with cerr := .halted }) ∧
    (s.fatal = false → s.map = none → exec .mapget s = .next { s with cerr := .nomap }) ∧
    (∀ m, s.fatal = false → s.map = some m →
      (s.nact.toNat ≤ s.opa.toNat → exec .mapget s = .next { s with cerr := .operand }) ∧
      (∀ p, s.opa.toNat < s.nact.toNat → Sparse.get m s.opa.toNat = some p →
        ∃ w, exec .mapget s = .next { s with cerr := .ok, res := p.blk, resh := w } ∧
          w.getLsbD 31 = true ∧ w.extractLsb' 16 15 = 0#15 ∧ w.extractLsb' 0 16 = p.src) ∧
      (s.opa.toNat < s.nact.toNat → Sparse.get m s.opa.toNat = none →
        exec .mapget s = .next { s with cerr := .ok, res := 0#32, resh := 0#32 }))

/-- R29, R271: `MAPSIZE` is latched: with any other value in it, every command but `MAPINIT` and the reset does the same. -/
def Obligations.MapsizeIsLatched : Prop :=
  ∀ (i : Instr) (s t : State) (n : BitVec 17), exec i s = .next t → i ≠ .mapinit → i ≠ .srst →
    exec i { s with mapsize := n } = .next { t with mapsize := n }

/-! ## The register interface and the sources -/

/-- R23, R24: a write by number to a read-write register keeps the bits of its width, as the next read shows; every other
register reads as before, but for the three that are functions of `SRCLEN`; and nothing that is no register changes: the map
(R9, R41), the diagnostic stream (R44), the sources (R61), the parameters, and the model's own lists of answers, requests and
replies (log entries 2 and 5). The list of accesses is the model's own (log entry 1). -/
def Obligations.RegisterWriteThenRead : Prop :=
  ∀ (s : State) (rest : List Access) (reg : Reg) (v : Word), s.pending = .write reg.number v :: rest →
    reg.readWrite = true →
    ∃ t, step s = .next t ∧ t.pending = rest ∧ (regRead t reg.number).toNat = v.toNat % 2 ^ reg.width ∧
      (∀ other : Reg, other ≠ reg →
        ((reg = .srclenLo ∨ reg = .srclenHi) →
          other ≠ .numblocks ∧ other ≠ .spareorgLo ∧ other ≠ .spareorgHi) →
        regRead t other.number = regRead s other.number) ∧
      t.map = s.map ∧ t.diag = s.diag ∧ t.sources = s.sources ∧ t.config = s.config ∧
      t.portAnswers = s.portAnswers ∧ t.portLog = s.portLog ∧ t.replies = s.replies

/-- R23, R25: a write to a read-only or reserved number is ignored; and in every state a reserved number and `CMD` read 0.
The list of accesses is the model's own (log entry 1). -/
def Obligations.IgnoredWritesAndZeroReads : Prop :=
  ∀ (s : State) (r : Fin 64),
    (∀ (rest : List Access) (v : Word), s.pending = .write r v :: rest →
      (r.val = 1 ∨ r.val = 4 ∨ (8 ≤ r.val ∧ r.val ≤ 10) ∨ (13 ≤ r.val ∧ r.val ≤ 31)) →
      step s = .next { s with pending := rest }) ∧
    (r.val = 0 ∨ (17 ≤ r.val ∧ r.val ≤ 31) → regRead s r = 0#32)

/-- R32, R64: `NUMBLOCKS` and `SPAREORG_*` show the geometry of the length in `SRCLEN` at the moment of the read; the page
count is the shown offset divided by 512. -/
def Obligations.GeometryRegisters : Prop :=
  ∀ (s : State) (L : Nat), L = (regRead s 7).toNat * 2 ^ 32 + (regRead s 6).toNat →
    (regRead s 8).toNat = L / 528 / 32 ∧ (regRead s 8).toNat = L / 16896 ∧
    (regRead s 10).toNat * 2 ^ 32 + (regRead s 9).toNat = L / 528 * 512 ∧
    ((regRead s 10).toNat * 2 ^ 32 + (regRead s 9).toNat) / 512 = L / 528

/-- R65, R68: for every length of 46 bits the two records of an existing block lie inside the source at offsets that are
multiples of 16, and every count fits its register. -/
def Obligations.SpareReadsInsideSource : Prop :=
  ∀ L : Nat, L < 2 ^ 46 →
    numPages L < 2 ^ 37 ∧ spareOrigin L < 2 ^ 46 ∧ numBlocks L ≤ 4164816771 ∧
    ∀ i, i < numBlocks L → offA L i + 16 ≤ L ∧ offB L i + 16 ≤ L ∧ offA L i % 16 = 0 ∧ offB L i % 16 = 0

/-- R91, R276: with a port that answers every read, every command returns and so does every step. The premise is the one
R276 and U6 name (log entry 5). -/
def Obligations.CommandsReturnWhenPortAnswers : Prop :=
  (∀ (i : Instr) (s : State), s.portAnswersAll → ∃ t, exec i s = .next t ∧ t.portAnswersAll) ∧
  ∀ s : State, s.portAnswersAll → ∃ t, step s = .next t ∧ t.portAnswersAll

/-- R26, R227: in every state `STATUS` reads `MAPV` in bit 0, which is 1 exactly while there is a map, `FATAL` in bit 1,
`FCAUSE` in 3:2, `CERR` in 7:4, `BRES` in 10:8, each by its numeric code, and zeros above. That the presence of the map
holds `MAPV` is the model's own (log entry 7). -/
def Obligations.StatusShowsFieldsAndCodes : Prop :=
  ∀ s : State,
    (regRead s 1).getLsbD 0 = s.map.isSome ∧
    (regRead s 1).getLsbD 1 = s.fatal ∧
    (regRead s 1).extractLsb' 2 2 = (match s.fcause with
      | .noCause => 0#2
      | .mismatch => 1#2
      | .duplicate => 2#2
      | .io => 3#2) ∧
    (regRead s 1).extractLsb' 4 4 = (match s.cerr with
      | .ok => 0#4
      | .illegal => 1#4
      | .halted => 2#4
      | .nomap => 3#4
      | .operand => 4#4) ∧
    (regRead s 1).extractLsb' 8 3 = (match s.bres with
      | .noVerdict => 0#3
      | .skipBlank => 1#3
      | .skipInvalid => 2#3
      | .claimed => 3#3
      | .dropRange => 4#3
      | .fatalMismatch => 5#3
      | .fatalDup => 6#3
      | .fatalIo => 7#3) ∧
    (regRead s 1).extractLsb' 11 21 = 0#21

/-- R24, R22, R27 to R31, R33 to R36: in every state each number of the map whose register holds state reads that state, with zeros above
its width: `CFG`, `MAPSIZE`, `NACT`, `SRCID`, `SRCLEN_*`, `BLKIDX`, `OPA`, `RES`, `RESH`, `PRES_A`, `PRES_B` and the bytes of
both spare buffers. -/
def Obligations.ReadsShowRegisters : Prop :=
  ∀ s : State,
    (regRead s 2).toNat = s.cfg.toNat ∧ (regRead s 3).toNat = s.mapsize.toNat ∧ (regRead s 4).toNat = s.nact.toNat ∧
    (regRead s 5).toNat = s.srcid.toNat ∧ regRead s 6 = s.srclenLo ∧ (regRead s 7).toNat = s.srclenHi.toNat ∧
    regRead s 11 = s.blkidx ∧ regRead s 12 = s.opa ∧ regRead s 13 = s.res ∧ regRead s 14 = s.resh ∧
    regRead s 15 = s.presA ∧ regRead s 16 = s.presB ∧
    ∀ (r : Fin 64) (k : Fin 16),
      (r.val = 32 + k.val → (regRead s r).toNat = s.spa[k].toNat) ∧
      (r.val = 48 + k.val → (regRead s r).toNat = s.spb[k].toNat)
end

