-- ==== Sys2Proof/Laws/Sparse.lean ====
section
/-! SUPPORT. The laws of the sparse memories: a read after a write, the canonical form that every operation keeps, and what
the reading of a whole spare record says of its bytes. -/

namespace Sys2Proof.Machine

section SparseLaws

variable {α : Type}

theorem Sparse.get_put (m : List (Nat × α)) (a b : Nat) (v : α) :
    Sparse.get (Sparse.put m a v) b = if b = a then some v else Sparse.get m b := by
  induction m with
  | nil => simp [Sparse.put, Sparse.get]
  | cons e rest ih =>
    obtain ⟨k, w⟩ := e
    simp only [Sparse.put]
    split
    · simp [Sparse.get]
    · split
      · subst k; simp only [Sparse.get]; split <;> rfl
      · simp only [Sparse.get, ih]
        split
        · next h => subst h; rw [if_neg (by omega)]
        · rfl

theorem Sparse.get_erase (m : List (Nat × α)) (a b : Nat) :
    Sparse.get (Sparse.erase m a) b = if b = a then none else Sparse.get m b := by
  induction m with
  | nil => simp [Sparse.erase, Sparse.get]
  | cons e rest ih =>
    obtain ⟨k, w⟩ := e
    by_cases hk : a = k
    · subst hk
      by_cases hb : b = a
      · subst hb; simpa [Sparse.erase] using ih
      · simp [Sparse.erase, Sparse.get, ih, hb]
    · by_cases hb : b = k
      · subst hb; simp [Sparse.erase, Sparse.get, hk, Ne.symm hk]
      · simp [Sparse.erase, Sparse.get, ih, hk, hb]

/-- A key that is listed is the key of an entry. -/
theorem Sparse.mem_put {m : List (Nat × α)} {a : Nat} {v : α} {p : Nat × α} (h : p ∈ Sparse.put m a v) :
    p = (a, v) ∨ p ∈ m := by
  induction m with
  | nil => simpa [Sparse.put] using h
  | cons e rest ih =>
    obtain ⟨k, w⟩ := e
    simp only [Sparse.put] at h
    split at h
    · simpa using h
    · split at h
      · rcases List.mem_cons.mp h with h | h
        · exact .inl h
        · exact .inr (List.mem_cons_of_mem _ h)
      · rcases List.mem_cons.mp h with h | h
        · exact .inr (by simp [h])
        · exact (ih h).imp_right (List.mem_cons_of_mem _)

theorem Sparse.mem_erase {m : List (Nat × α)} {a : Nat} {p : Nat × α} (h : p ∈ Sparse.erase m a) : p ∈ m := by
  induction m with
  | nil => simp [Sparse.erase] at h
  | cons e rest ih =>
    obtain ⟨k, w⟩ := e
    simp only [Sparse.erase] at h
    split at h
    · exact List.mem_cons_of_mem _ (ih h)
    · rcases List.mem_cons.mp h with h | h
      · simp [h]
      · exact List.mem_cons_of_mem _ (ih h)

theorem Sparse.wf_put {m : List (Nat × α)} (h : Sparse.wf m) (a : Nat) (v : α) : Sparse.wf (Sparse.put m a v) := by
  induction m with
  | nil => simp [Sparse.put]
  | cons e rest ih =>
    obtain ⟨k, w⟩ := e
    obtain ⟨hk, hr⟩ := List.pairwise_cons.mp h
    simp only [Sparse.put]
    split
    · next ha =>
      refine List.pairwise_cons.mpr ⟨fun q hq => ?_, h⟩
      rcases List.mem_cons.mp hq with rfl | hq
      · exact ha
      · exact Nat.lt_trans ha (hk q hq)
    · split
      · next ha => subst ha; exact List.pairwise_cons.mpr ⟨hk, hr⟩
      · next h1 h2 =>
        refine List.pairwise_cons.mpr ⟨fun q hq => ?_, ih hr⟩
        rcases Sparse.mem_put hq with rfl | hq
        · show k < a; omega
        · exact hk q hq

theorem Sparse.wf_erase {m : List (Nat × α)} (h : Sparse.wf m) (a : Nat) : Sparse.wf (Sparse.erase m a) := by
  induction m with
  | nil => simp [Sparse.erase]
  | cons e rest ih =>
    obtain ⟨k, w⟩ := e
    obtain ⟨hk, hr⟩ := List.pairwise_cons.mp h
    simp only [Sparse.erase]
    split
    · exact ih hr
    · exact List.pairwise_cons.mpr ⟨fun q hq => hk q (Sparse.mem_erase hq), ih hr⟩

end SparseLaws

/-- Different bytes of source memory have different keys. -/
theorem sourceKey_inj {src src' : BitVec 16} {off off' : Nat} (h : off < 2 ^ 46) (h' : off' < 2 ^ 46) :
    sourceKey src off = sourceKey src' off' ↔ src = src' ∧ off = off' := by
  simp only [sourceKey]
  constructor
  · intro e
    have : src.toNat = src'.toNat := by omega
    exact ⟨BitVec.eq_of_toNat_eq this, by omega⟩
  · rintro ⟨rfl, rfl⟩; rfl

/-- A byte of a source after the host changed what the port serves: the new byte at the changed place, the old one
everywhere else. -/
theorem Memory.byteAt_set (m : Memory) (src src' : BitVec 16) (off : BitVec 46) (off' : Nat) (b : Option Byte) :
    (m.set src off b).byteAt src' off' = if src' = src ∧ off' = off.toNat then b else m.byteAt src' off' := by
  have ho : off.toNat < 2 ^ 46 := off.isLt
  by_cases h : off' < 2 ^ 46
  · simp only [Memory.byteAt, if_pos h]
    cases b with
    | none => simp only [Memory.set, Sparse.get_erase, sourceKey_inj h ho]
    | some b => simp only [Memory.set, Sparse.get_put, sourceKey_inj h ho]
  · have hne : ¬ (src' = src ∧ off' = off.toNat) := by omega
    simp only [Memory.byteAt, if_neg h, if_neg hne]

theorem Memory.wf_set {m : Memory} (h : m.wf) (src : BitVec 16) (off : BitVec 46) (b : Option Byte) :
    (m.set src off b).wf := by
  cases b with
  | none => exact Sparse.wf_erase h _
  | some b => exact Sparse.wf_put h _ b

theorem reset_sources_wf : State.reset.sources.wf := List.Pairwise.nil

/-- A spare record is read exactly when the port serves its sixteen bytes, and it is those bytes in ascending order. -/
theorem Memory.record_eq_some_iff (m : Memory) (src : BitVec 16) (off : Nat) (r : SpareRecord) :
    m.record src off = some r ↔ ∀ k : Fin 16, m.byteAt src (off + k.val) = some r[k] := by
  unfold Memory.record
  split
  · next h =>
    simp only [List.all_eq_true, List.mem_range] at h
    constructor
    · intro e k
      obtain ⟨b, hb⟩ := Option.isSome_iff_exists.mp (h k.val k.isLt)
      simp only [Option.some.injEq] at e
      subst e
      simp [hb]
    · intro e
      simp only [Option.some.injEq]
      apply Vector.ext
      intro i hi
      have := e ⟨i, hi⟩
      simp only at this
      simp [this]
  · next h =>
    simp only [List.all_eq_true, List.mem_range] at h
    constructor
    · intro e; cases e
    · intro e
      exact absurd (fun k hk => by rw [e ⟨k, hk⟩]; rfl) h

/-- No record is read exactly when some byte of it is not served. -/
theorem Memory.record_eq_none_iff (m : Memory) (src : BitVec 16) (off : Nat) :
    m.record src off = none ↔ ∃ k, k < 16 ∧ m.byteAt src (off + k) = none := by
  unfold Memory.record
  split
  · next h =>
    simp only [List.all_eq_true, List.mem_range] at h
    refine ⟨fun e => (by cases e), fun ⟨k, hk, e⟩ => ?_⟩
    have := h k hk
    simp [e] at this
  · next h =>
    simp only [List.all_eq_true, List.mem_range, not_forall] at h
    obtain ⟨k, hk, e⟩ := h
    exact ⟨fun _ => ⟨k, hk, by simpa using e⟩, fun _ => rfl⟩

end Sys2Proof.Machine
end

