-- ==== Sys2Proof/Laws/State.lean ====
section
/-! SUPPORT. For each update of the state, what every field is after it, each true by computation: no later proof unfolds a
record update. -/

namespace Sys2Proof.Machine

variable (s : State)

section setCerr

variable (c : CErr)

@[simp] theorem setCerr_cfg : (s.setCerr c).cfg = s.cfg := rfl
@[simp] theorem setCerr_mapsize : (s.setCerr c).mapsize = s.mapsize := rfl
@[simp] theorem setCerr_nact : (s.setCerr c).nact = s.nact := rfl
@[simp] theorem setCerr_srcid : (s.setCerr c).srcid = s.srcid := rfl
@[simp] theorem setCerr_srclenLo : (s.setCerr c).srclenLo = s.srclenLo := rfl
@[simp] theorem setCerr_srclenHi : (s.setCerr c).srclenHi = s.srclenHi := rfl
@[simp] theorem setCerr_blkidx : (s.setCerr c).blkidx = s.blkidx := rfl
@[simp] theorem setCerr_opa : (s.setCerr c).opa = s.opa := rfl
@[simp] theorem setCerr_res : (s.setCerr c).res = s.res := rfl
@[simp] theorem setCerr_resh : (s.setCerr c).resh = s.resh := rfl
@[simp] theorem setCerr_presA : (s.setCerr c).presA = s.presA := rfl
@[simp] theorem setCerr_presB : (s.setCerr c).presB = s.presB := rfl
@[simp] theorem setCerr_spa : (s.setCerr c).spa = s.spa := rfl
@[simp] theorem setCerr_spb : (s.setCerr c).spb = s.spb := rfl
@[simp] theorem setCerr_fatal : (s.setCerr c).fatal = s.fatal := rfl
@[simp] theorem setCerr_fcause : (s.setCerr c).fcause = s.fcause := rfl
@[simp] theorem setCerr_cerr : (s.setCerr c).cerr = c := rfl
@[simp] theorem setCerr_bres : (s.setCerr c).bres = s.bres := rfl
@[simp] theorem setCerr_map : (s.setCerr c).map = s.map := rfl
@[simp] theorem setCerr_diag : (s.setCerr c).diag = s.diag := rfl
@[simp] theorem setCerr_sources : (s.setCerr c).sources = s.sources := rfl
@[simp] theorem setCerr_portAnswers : (s.setCerr c).portAnswers = s.portAnswers := rfl
@[simp] theorem setCerr_portLog : (s.setCerr c).portLog = s.portLog := rfl
@[simp] theorem setCerr_pending : (s.setCerr c).pending = s.pending := rfl
@[simp] theorem setCerr_replies : (s.setCerr c).replies = s.replies := rfl
@[simp] theorem setCerr_config : (s.setCerr c).config = s.config := rfl

end setCerr

section setVerdict

variable (v : BRes)

@[simp] theorem setVerdict_cfg : (s.setVerdict v).cfg = s.cfg := rfl
@[simp] theorem setVerdict_mapsize : (s.setVerdict v).mapsize = s.mapsize := rfl
@[simp] theorem setVerdict_nact : (s.setVerdict v).nact = s.nact := rfl
@[simp] theorem setVerdict_srcid : (s.setVerdict v).srcid = s.srcid := rfl
@[simp] theorem setVerdict_srclenLo : (s.setVerdict v).srclenLo = s.srclenLo := rfl
@[simp] theorem setVerdict_srclenHi : (s.setVerdict v).srclenHi = s.srclenHi := rfl
@[simp] theorem setVerdict_blkidx : (s.setVerdict v).blkidx = s.blkidx := rfl
@[simp] theorem setVerdict_opa : (s.setVerdict v).opa = s.opa := rfl
@[simp] theorem setVerdict_res : (s.setVerdict v).res = s.res := rfl
@[simp] theorem setVerdict_resh : (s.setVerdict v).resh = s.resh := rfl
@[simp] theorem setVerdict_presA : (s.setVerdict v).presA = s.presA := rfl
@[simp] theorem setVerdict_presB : (s.setVerdict v).presB = s.presB := rfl
@[simp] theorem setVerdict_spa : (s.setVerdict v).spa = s.spa := rfl
@[simp] theorem setVerdict_spb : (s.setVerdict v).spb = s.spb := rfl
@[simp] theorem setVerdict_fatal : (s.setVerdict v).fatal = s.fatal := rfl
@[simp] theorem setVerdict_fcause : (s.setVerdict v).fcause = s.fcause := rfl
@[simp] theorem setVerdict_cerr : (s.setVerdict v).cerr = s.cerr := rfl
@[simp] theorem setVerdict_bres : (s.setVerdict v).bres = v := rfl
@[simp] theorem setVerdict_map : (s.setVerdict v).map = s.map := rfl
@[simp] theorem setVerdict_diag : (s.setVerdict v).diag = s.diag := rfl
@[simp] theorem setVerdict_sources : (s.setVerdict v).sources = s.sources := rfl
@[simp] theorem setVerdict_portAnswers : (s.setVerdict v).portAnswers = s.portAnswers := rfl
@[simp] theorem setVerdict_portLog : (s.setVerdict v).portLog = s.portLog := rfl
@[simp] theorem setVerdict_pending : (s.setVerdict v).pending = s.pending := rfl
@[simp] theorem setVerdict_replies : (s.setVerdict v).replies = s.replies := rfl
@[simp] theorem setVerdict_config : (s.setVerdict v).config = s.config := rfl

end setVerdict

section setResult

variable (lo hi : Word)

@[simp] theorem setResult_cfg : (s.setResult lo hi).cfg = s.cfg := rfl
@[simp] theorem setResult_mapsize : (s.setResult lo hi).mapsize = s.mapsize := rfl
@[simp] theorem setResult_nact : (s.setResult lo hi).nact = s.nact := rfl
@[simp] theorem setResult_srcid : (s.setResult lo hi).srcid = s.srcid := rfl
@[simp] theorem setResult_srclenLo : (s.setResult lo hi).srclenLo = s.srclenLo := rfl
@[simp] theorem setResult_srclenHi : (s.setResult lo hi).srclenHi = s.srclenHi := rfl
@[simp] theorem setResult_blkidx : (s.setResult lo hi).blkidx = s.blkidx := rfl
@[simp] theorem setResult_opa : (s.setResult lo hi).opa = s.opa := rfl
@[simp] theorem setResult_res : (s.setResult lo hi).res = lo := rfl
@[simp] theorem setResult_resh : (s.setResult lo hi).resh = hi := rfl
@[simp] theorem setResult_presA : (s.setResult lo hi).presA = s.presA := rfl
@[simp] theorem setResult_presB : (s.setResult lo hi).presB = s.presB := rfl
@[simp] theorem setResult_spa : (s.setResult lo hi).spa = s.spa := rfl
@[simp] theorem setResult_spb : (s.setResult lo hi).spb = s.spb := rfl
@[simp] theorem setResult_fatal : (s.setResult lo hi).fatal = s.fatal := rfl
@[simp] theorem setResult_fcause : (s.setResult lo hi).fcause = s.fcause := rfl
@[simp] theorem setResult_cerr : (s.setResult lo hi).cerr = s.cerr := rfl
@[simp] theorem setResult_bres : (s.setResult lo hi).bres = s.bres := rfl
@[simp] theorem setResult_map : (s.setResult lo hi).map = s.map := rfl
@[simp] theorem setResult_diag : (s.setResult lo hi).diag = s.diag := rfl
@[simp] theorem setResult_sources : (s.setResult lo hi).sources = s.sources := rfl
@[simp] theorem setResult_portAnswers : (s.setResult lo hi).portAnswers = s.portAnswers := rfl
@[simp] theorem setResult_portLog : (s.setResult lo hi).portLog = s.portLog := rfl
@[simp] theorem setResult_pending : (s.setResult lo hi).pending = s.pending := rfl
@[simp] theorem setResult_replies : (s.setResult lo hi).replies = s.replies := rfl
@[simp] theorem setResult_config : (s.setResult lo hi).config = s.config := rfl

end setResult

section setPresA

variable (w : Word)

@[simp] theorem setPresA_cfg : (s.setPresA w).cfg = s.cfg := rfl
@[simp] theorem setPresA_mapsize : (s.setPresA w).mapsize = s.mapsize := rfl
@[simp] theorem setPresA_nact : (s.setPresA w).nact = s.nact := rfl
@[simp] theorem setPresA_srcid : (s.setPresA w).srcid = s.srcid := rfl
@[simp] theorem setPresA_srclenLo : (s.setPresA w).srclenLo = s.srclenLo := rfl
@[simp] theorem setPresA_srclenHi : (s.setPresA w).srclenHi = s.srclenHi := rfl
@[simp] theorem setPresA_blkidx : (s.setPresA w).blkidx = s.blkidx := rfl
@[simp] theorem setPresA_opa : (s.setPresA w).opa = s.opa := rfl
@[simp] theorem setPresA_res : (s.setPresA w).res = s.res := rfl
@[simp] theorem setPresA_resh : (s.setPresA w).resh = s.resh := rfl
@[simp] theorem setPresA_presA : (s.setPresA w).presA = w := rfl
@[simp] theorem setPresA_presB : (s.setPresA w).presB = s.presB := rfl
@[simp] theorem setPresA_spa : (s.setPresA w).spa = s.spa := rfl
@[simp] theorem setPresA_spb : (s.setPresA w).spb = s.spb := rfl
@[simp] theorem setPresA_fatal : (s.setPresA w).fatal = s.fatal := rfl
@[simp] theorem setPresA_fcause : (s.setPresA w).fcause = s.fcause := rfl
@[simp] theorem setPresA_cerr : (s.setPresA w).cerr = s.cerr := rfl
@[simp] theorem setPresA_bres : (s.setPresA w).bres = s.bres := rfl
@[simp] theorem setPresA_map : (s.setPresA w).map = s.map := rfl
@[simp] theorem setPresA_diag : (s.setPresA w).diag = s.diag := rfl
@[simp] theorem setPresA_sources : (s.setPresA w).sources = s.sources := rfl
@[simp] theorem setPresA_portAnswers : (s.setPresA w).portAnswers = s.portAnswers := rfl
@[simp] theorem setPresA_portLog : (s.setPresA w).portLog = s.portLog := rfl
@[simp] theorem setPresA_pending : (s.setPresA w).pending = s.pending := rfl
@[simp] theorem setPresA_replies : (s.setPresA w).replies = s.replies := rfl
@[simp] theorem setPresA_config : (s.setPresA w).config = s.config := rfl

end setPresA

section setPresB

variable (w : Word)

@[simp] theorem setPresB_cfg : (s.setPresB w).cfg = s.cfg := rfl
@[simp] theorem setPresB_mapsize : (s.setPresB w).mapsize = s.mapsize := rfl
@[simp] theorem setPresB_nact : (s.setPresB w).nact = s.nact := rfl
@[simp] theorem setPresB_srcid : (s.setPresB w).srcid = s.srcid := rfl
@[simp] theorem setPresB_srclenLo : (s.setPresB w).srclenLo = s.srclenLo := rfl
@[simp] theorem setPresB_srclenHi : (s.setPresB w).srclenHi = s.srclenHi := rfl
@[simp] theorem setPresB_blkidx : (s.setPresB w).blkidx = s.blkidx := rfl
@[simp] theorem setPresB_opa : (s.setPresB w).opa = s.opa := rfl
@[simp] theorem setPresB_res : (s.setPresB w).res = s.res := rfl
@[simp] theorem setPresB_resh : (s.setPresB w).resh = s.resh := rfl
@[simp] theorem setPresB_presA : (s.setPresB w).presA = s.presA := rfl
@[simp] theorem setPresB_presB : (s.setPresB w).presB = w := rfl
@[simp] theorem setPresB_spa : (s.setPresB w).spa = s.spa := rfl
@[simp] theorem setPresB_spb : (s.setPresB w).spb = s.spb := rfl
@[simp] theorem setPresB_fatal : (s.setPresB w).fatal = s.fatal := rfl
@[simp] theorem setPresB_fcause : (s.setPresB w).fcause = s.fcause := rfl
@[simp] theorem setPresB_cerr : (s.setPresB w).cerr = s.cerr := rfl
@[simp] theorem setPresB_bres : (s.setPresB w).bres = s.bres := rfl
@[simp] theorem setPresB_map : (s.setPresB w).map = s.map := rfl
@[simp] theorem setPresB_diag : (s.setPresB w).diag = s.diag := rfl
@[simp] theorem setPresB_sources : (s.setPresB w).sources = s.sources := rfl
@[simp] theorem setPresB_portAnswers : (s.setPresB w).portAnswers = s.portAnswers := rfl
@[simp] theorem setPresB_portLog : (s.setPresB w).portLog = s.portLog := rfl
@[simp] theorem setPresB_pending : (s.setPresB w).pending = s.pending := rfl
@[simp] theorem setPresB_replies : (s.setPresB w).replies = s.replies := rfl
@[simp] theorem setPresB_config : (s.setPresB w).config = s.config := rfl

end setPresB

section setBuffers

variable (a b : SpareRecord)

@[simp] theorem setBuffers_cfg : (s.setBuffers a b).cfg = s.cfg := rfl
@[simp] theorem setBuffers_mapsize : (s.setBuffers a b).mapsize = s.mapsize := rfl
@[simp] theorem setBuffers_nact : (s.setBuffers a b).nact = s.nact := rfl
@[simp] theorem setBuffers_srcid : (s.setBuffers a b).srcid = s.srcid := rfl
@[simp] theorem setBuffers_srclenLo : (s.setBuffers a b).srclenLo = s.srclenLo := rfl
@[simp] theorem setBuffers_srclenHi : (s.setBuffers a b).srclenHi = s.srclenHi := rfl
@[simp] theorem setBuffers_blkidx : (s.setBuffers a b).blkidx = s.blkidx := rfl
@[simp] theorem setBuffers_opa : (s.setBuffers a b).opa = s.opa := rfl
@[simp] theorem setBuffers_res : (s.setBuffers a b).res = s.res := rfl
@[simp] theorem setBuffers_resh : (s.setBuffers a b).resh = s.resh := rfl
@[simp] theorem setBuffers_presA : (s.setBuffers a b).presA = s.presA := rfl
@[simp] theorem setBuffers_presB : (s.setBuffers a b).presB = s.presB := rfl
@[simp] theorem setBuffers_spa : (s.setBuffers a b).spa = a := rfl
@[simp] theorem setBuffers_spb : (s.setBuffers a b).spb = b := rfl
@[simp] theorem setBuffers_fatal : (s.setBuffers a b).fatal = s.fatal := rfl
@[simp] theorem setBuffers_fcause : (s.setBuffers a b).fcause = s.fcause := rfl
@[simp] theorem setBuffers_cerr : (s.setBuffers a b).cerr = s.cerr := rfl
@[simp] theorem setBuffers_bres : (s.setBuffers a b).bres = s.bres := rfl
@[simp] theorem setBuffers_map : (s.setBuffers a b).map = s.map := rfl
@[simp] theorem setBuffers_diag : (s.setBuffers a b).diag = s.diag := rfl
@[simp] theorem setBuffers_sources : (s.setBuffers a b).sources = s.sources := rfl
@[simp] theorem setBuffers_portAnswers : (s.setBuffers a b).portAnswers = s.portAnswers := rfl
@[simp] theorem setBuffers_portLog : (s.setBuffers a b).portLog = s.portLog := rfl
@[simp] theorem setBuffers_pending : (s.setBuffers a b).pending = s.pending := rfl
@[simp] theorem setBuffers_replies : (s.setBuffers a b).replies = s.replies := rfl
@[simp] theorem setBuffers_config : (s.setBuffers a b).config = s.config := rfl

end setBuffers

section setCursor

variable (i : BitVec 32)

@[simp] theorem setCursor_cfg : (s.setCursor i).cfg = s.cfg := rfl
@[simp] theorem setCursor_mapsize : (s.setCursor i).mapsize = s.mapsize := rfl
@[simp] theorem setCursor_nact : (s.setCursor i).nact = s.nact := rfl
@[simp] theorem setCursor_srcid : (s.setCursor i).srcid = s.srcid := rfl
@[simp] theorem setCursor_srclenLo : (s.setCursor i).srclenLo = s.srclenLo := rfl
@[simp] theorem setCursor_srclenHi : (s.setCursor i).srclenHi = s.srclenHi := rfl
@[simp] theorem setCursor_blkidx : (s.setCursor i).blkidx = i := rfl
@[simp] theorem setCursor_opa : (s.setCursor i).opa = s.opa := rfl
@[simp] theorem setCursor_res : (s.setCursor i).res = s.res := rfl
@[simp] theorem setCursor_resh : (s.setCursor i).resh = s.resh := rfl
@[simp] theorem setCursor_presA : (s.setCursor i).presA = s.presA := rfl
@[simp] theorem setCursor_presB : (s.setCursor i).presB = s.presB := rfl
@[simp] theorem setCursor_spa : (s.setCursor i).spa = s.spa := rfl
@[simp] theorem setCursor_spb : (s.setCursor i).spb = s.spb := rfl
@[simp] theorem setCursor_fatal : (s.setCursor i).fatal = s.fatal := rfl
@[simp] theorem setCursor_fcause : (s.setCursor i).fcause = s.fcause := rfl
@[simp] theorem setCursor_cerr : (s.setCursor i).cerr = s.cerr := rfl
@[simp] theorem setCursor_bres : (s.setCursor i).bres = s.bres := rfl
@[simp] theorem setCursor_map : (s.setCursor i).map = s.map := rfl
@[simp] theorem setCursor_diag : (s.setCursor i).diag = s.diag := rfl
@[simp] theorem setCursor_sources : (s.setCursor i).sources = s.sources := rfl
@[simp] theorem setCursor_portAnswers : (s.setCursor i).portAnswers = s.portAnswers := rfl
@[simp] theorem setCursor_portLog : (s.setCursor i).portLog = s.portLog := rfl
@[simp] theorem setCursor_pending : (s.setCursor i).pending = s.pending := rfl
@[simp] theorem setCursor_replies : (s.setCursor i).replies = s.replies := rfl
@[simp] theorem setCursor_config : (s.setCursor i).config = s.config := rfl

end setCursor

section emit

variable (r : DiagRecord)

@[simp] theorem emit_cfg : (s.emit r).cfg = s.cfg := rfl
@[simp] theorem emit_mapsize : (s.emit r).mapsize = s.mapsize := rfl
@[simp] theorem emit_nact : (s.emit r).nact = s.nact := rfl
@[simp] theorem emit_srcid : (s.emit r).srcid = s.srcid := rfl
@[simp] theorem emit_srclenLo : (s.emit r).srclenLo = s.srclenLo := rfl
@[simp] theorem emit_srclenHi : (s.emit r).srclenHi = s.srclenHi := rfl
@[simp] theorem emit_blkidx : (s.emit r).blkidx = s.blkidx := rfl
@[simp] theorem emit_opa : (s.emit r).opa = s.opa := rfl
@[simp] theorem emit_res : (s.emit r).res = s.res := rfl
@[simp] theorem emit_resh : (s.emit r).resh = s.resh := rfl
@[simp] theorem emit_presA : (s.emit r).presA = s.presA := rfl
@[simp] theorem emit_presB : (s.emit r).presB = s.presB := rfl
@[simp] theorem emit_spa : (s.emit r).spa = s.spa := rfl
@[simp] theorem emit_spb : (s.emit r).spb = s.spb := rfl
@[simp] theorem emit_fatal : (s.emit r).fatal = s.fatal := rfl
@[simp] theorem emit_fcause : (s.emit r).fcause = s.fcause := rfl
@[simp] theorem emit_cerr : (s.emit r).cerr = s.cerr := rfl
@[simp] theorem emit_bres : (s.emit r).bres = s.bres := rfl
@[simp] theorem emit_map : (s.emit r).map = s.map := rfl
@[simp] theorem emit_diag : (s.emit r).diag = s.diag ++ [r] := rfl
@[simp] theorem emit_sources : (s.emit r).sources = s.sources := rfl
@[simp] theorem emit_portAnswers : (s.emit r).portAnswers = s.portAnswers := rfl
@[simp] theorem emit_portLog : (s.emit r).portLog = s.portLog := rfl
@[simp] theorem emit_pending : (s.emit r).pending = s.pending := rfl
@[simp] theorem emit_replies : (s.emit r).replies = s.replies := rfl
@[simp] theorem emit_config : (s.emit r).config = s.config := rfl

end emit

section raiseFatal

variable (c : FCause) (v : BRes)

@[simp] theorem raiseFatal_cfg : (s.raiseFatal c v).cfg = s.cfg := rfl
@[simp] theorem raiseFatal_mapsize : (s.raiseFatal c v).mapsize = s.mapsize := rfl
@[simp] theorem raiseFatal_nact : (s.raiseFatal c v).nact = s.nact := rfl
@[simp] theorem raiseFatal_srcid : (s.raiseFatal c v).srcid = s.srcid := rfl
@[simp] theorem raiseFatal_srclenLo : (s.raiseFatal c v).srclenLo = s.srclenLo := rfl
@[simp] theorem raiseFatal_srclenHi : (s.raiseFatal c v).srclenHi = s.srclenHi := rfl
@[simp] theorem raiseFatal_blkidx : (s.raiseFatal c v).blkidx = s.blkidx := rfl
@[simp] theorem raiseFatal_opa : (s.raiseFatal c v).opa = s.opa := rfl
@[simp] theorem raiseFatal_res : (s.raiseFatal c v).res = s.res := rfl
@[simp] theorem raiseFatal_resh : (s.raiseFatal c v).resh = s.resh := rfl
@[simp] theorem raiseFatal_presA : (s.raiseFatal c v).presA = s.presA := rfl
@[simp] theorem raiseFatal_presB : (s.raiseFatal c v).presB = s.presB := rfl
@[simp] theorem raiseFatal_spa : (s.raiseFatal c v).spa = s.spa := rfl
@[simp] theorem raiseFatal_spb : (s.raiseFatal c v).spb = s.spb := rfl
@[simp] theorem raiseFatal_fatal : (s.raiseFatal c v).fatal = true := rfl
@[simp] theorem raiseFatal_fcause : (s.raiseFatal c v).fcause = c := rfl
@[simp] theorem raiseFatal_cerr : (s.raiseFatal c v).cerr = s.cerr := rfl
@[simp] theorem raiseFatal_bres : (s.raiseFatal c v).bres = v := rfl
@[simp] theorem raiseFatal_map : (s.raiseFatal c v).map = s.map := rfl
@[simp] theorem raiseFatal_diag : (s.raiseFatal c v).diag = s.diag := rfl
@[simp] theorem raiseFatal_sources : (s.raiseFatal c v).sources = s.sources := rfl
@[simp] theorem raiseFatal_portAnswers : (s.raiseFatal c v).portAnswers = s.portAnswers := rfl
@[simp] theorem raiseFatal_portLog : (s.raiseFatal c v).portLog = s.portLog := rfl
@[simp] theorem raiseFatal_pending : (s.raiseFatal c v).pending = s.pending := rfl
@[simp] theorem raiseFatal_replies : (s.raiseFatal c v).replies = s.replies := rfl
@[simp] theorem raiseFatal_config : (s.raiseFatal c v).config = s.config := rfl

end raiseFatal

section setSlot

variable (i : Nat) (p : Slot)

@[simp] theorem setSlot_cfg : (s.setSlot i p).cfg = s.cfg := rfl
@[simp] theorem setSlot_mapsize : (s.setSlot i p).mapsize = s.mapsize := rfl
@[simp] theorem setSlot_nact : (s.setSlot i p).nact = s.nact := rfl
@[simp] theorem setSlot_srcid : (s.setSlot i p).srcid = s.srcid := rfl
@[simp] theorem setSlot_srclenLo : (s.setSlot i p).srclenLo = s.srclenLo := rfl
@[simp] theorem setSlot_srclenHi : (s.setSlot i p).srclenHi = s.srclenHi := rfl
@[simp] theorem setSlot_blkidx : (s.setSlot i p).blkidx = s.blkidx := rfl
@[simp] theorem setSlot_opa : (s.setSlot i p).opa = s.opa := rfl
@[simp] theorem setSlot_res : (s.setSlot i p).res = s.res := rfl
@[simp] theorem setSlot_resh : (s.setSlot i p).resh = s.resh := rfl
@[simp] theorem setSlot_presA : (s.setSlot i p).presA = s.presA := rfl
@[simp] theorem setSlot_presB : (s.setSlot i p).presB = s.presB := rfl
@[simp] theorem setSlot_spa : (s.setSlot i p).spa = s.spa := rfl
@[simp] theorem setSlot_spb : (s.setSlot i p).spb = s.spb := rfl
@[simp] theorem setSlot_fatal : (s.setSlot i p).fatal = s.fatal := rfl
@[simp] theorem setSlot_fcause : (s.setSlot i p).fcause = s.fcause := rfl
@[simp] theorem setSlot_cerr : (s.setSlot i p).cerr = s.cerr := rfl
@[simp] theorem setSlot_bres : (s.setSlot i p).bres = s.bres := rfl
@[simp] theorem setSlot_map : (s.setSlot i p).map = s.map.map fun m => Sparse.put m i p := rfl
@[simp] theorem setSlot_diag : (s.setSlot i p).diag = s.diag := rfl
@[simp] theorem setSlot_sources : (s.setSlot i p).sources = s.sources := rfl
@[simp] theorem setSlot_portAnswers : (s.setSlot i p).portAnswers = s.portAnswers := rfl
@[simp] theorem setSlot_portLog : (s.setSlot i p).portLog = s.portLog := rfl
@[simp] theorem setSlot_pending : (s.setSlot i p).pending = s.pending := rfl
@[simp] theorem setSlot_replies : (s.setSlot i p).replies = s.replies := rfl
@[simp] theorem setSlot_config : (s.setSlot i p).config = s.config := rfl

end setSlot

section setPending

variable (rest : List Access)

@[simp] theorem setPending_cfg : (s.setPending rest).cfg = s.cfg := rfl
@[simp] theorem setPending_mapsize : (s.setPending rest).mapsize = s.mapsize := rfl
@[simp] theorem setPending_nact : (s.setPending rest).nact = s.nact := rfl
@[simp] theorem setPending_srcid : (s.setPending rest).srcid = s.srcid := rfl
@[simp] theorem setPending_srclenLo : (s.setPending rest).srclenLo = s.srclenLo := rfl
@[simp] theorem setPending_srclenHi : (s.setPending rest).srclenHi = s.srclenHi := rfl
@[simp] theorem setPending_blkidx : (s.setPending rest).blkidx = s.blkidx := rfl
@[simp] theorem setPending_opa : (s.setPending rest).opa = s.opa := rfl
@[simp] theorem setPending_res : (s.setPending rest).res = s.res := rfl
@[simp] theorem setPending_resh : (s.setPending rest).resh = s.resh := rfl
@[simp] theorem setPending_presA : (s.setPending rest).presA = s.presA := rfl
@[simp] theorem setPending_presB : (s.setPending rest).presB = s.presB := rfl
@[simp] theorem setPending_spa : (s.setPending rest).spa = s.spa := rfl
@[simp] theorem setPending_spb : (s.setPending rest).spb = s.spb := rfl
@[simp] theorem setPending_fatal : (s.setPending rest).fatal = s.fatal := rfl
@[simp] theorem setPending_fcause : (s.setPending rest).fcause = s.fcause := rfl
@[simp] theorem setPending_cerr : (s.setPending rest).cerr = s.cerr := rfl
@[simp] theorem setPending_bres : (s.setPending rest).bres = s.bres := rfl
@[simp] theorem setPending_map : (s.setPending rest).map = s.map := rfl
@[simp] theorem setPending_diag : (s.setPending rest).diag = s.diag := rfl
@[simp] theorem setPending_sources : (s.setPending rest).sources = s.sources := rfl
@[simp] theorem setPending_portAnswers : (s.setPending rest).portAnswers = s.portAnswers := rfl
@[simp] theorem setPending_portLog : (s.setPending rest).portLog = s.portLog := rfl
@[simp] theorem setPending_pending : (s.setPending rest).pending = rest := rfl
@[simp] theorem setPending_replies : (s.setPending rest).replies = s.replies := rfl
@[simp] theorem setPending_config : (s.setPending rest).config = s.config := rfl

end setPending

section addReply

variable (v : Word)

@[simp] theorem addReply_cfg : (s.addReply v).cfg = s.cfg := rfl
@[simp] theorem addReply_mapsize : (s.addReply v).mapsize = s.mapsize := rfl
@[simp] theorem addReply_nact : (s.addReply v).nact = s.nact := rfl
@[simp] theorem addReply_srcid : (s.addReply v).srcid = s.srcid := rfl
@[simp] theorem addReply_srclenLo : (s.addReply v).srclenLo = s.srclenLo := rfl
@[simp] theorem addReply_srclenHi : (s.addReply v).srclenHi = s.srclenHi := rfl
@[simp] theorem addReply_blkidx : (s.addReply v).blkidx = s.blkidx := rfl
@[simp] theorem addReply_opa : (s.addReply v).opa = s.opa := rfl
@[simp] theorem addReply_res : (s.addReply v).res = s.res := rfl
@[simp] theorem addReply_resh : (s.addReply v).resh = s.resh := rfl
@[simp] theorem addReply_presA : (s.addReply v).presA = s.presA := rfl
@[simp] theorem addReply_presB : (s.addReply v).presB = s.presB := rfl
@[simp] theorem addReply_spa : (s.addReply v).spa = s.spa := rfl
@[simp] theorem addReply_spb : (s.addReply v).spb = s.spb := rfl
@[simp] theorem addReply_fatal : (s.addReply v).fatal = s.fatal := rfl
@[simp] theorem addReply_fcause : (s.addReply v).fcause = s.fcause := rfl
@[simp] theorem addReply_cerr : (s.addReply v).cerr = s.cerr := rfl
@[simp] theorem addReply_bres : (s.addReply v).bres = s.bres := rfl
@[simp] theorem addReply_map : (s.addReply v).map = s.map := rfl
@[simp] theorem addReply_diag : (s.addReply v).diag = s.diag := rfl
@[simp] theorem addReply_sources : (s.addReply v).sources = s.sources := rfl
@[simp] theorem addReply_portAnswers : (s.addReply v).portAnswers = s.portAnswers := rfl
@[simp] theorem addReply_portLog : (s.addReply v).portLog = s.portLog := rfl
@[simp] theorem addReply_pending : (s.addReply v).pending = s.pending := rfl
@[simp] theorem addReply_replies : (s.addReply v).replies = s.replies ++ [v] := rfl
@[simp] theorem addReply_config : (s.addReply v).config = s.config := rfl

end addReply

section setSources

variable (m : Memory)

@[simp] theorem setSources_cfg : (s.setSources m).cfg = s.cfg := rfl
@[simp] theorem setSources_mapsize : (s.setSources m).mapsize = s.mapsize := rfl
@[simp] theorem setSources_nact : (s.setSources m).nact = s.nact := rfl
@[simp] theorem setSources_srcid : (s.setSources m).srcid = s.srcid := rfl
@[simp] theorem setSources_srclenLo : (s.setSources m).srclenLo = s.srclenLo := rfl
@[simp] theorem setSources_srclenHi : (s.setSources m).srclenHi = s.srclenHi := rfl
@[simp] theorem setSources_blkidx : (s.setSources m).blkidx = s.blkidx := rfl
@[simp] theorem setSources_opa : (s.setSources m).opa = s.opa := rfl
@[simp] theorem setSources_res : (s.setSources m).res = s.res := rfl
@[simp] theorem setSources_resh : (s.setSources m).resh = s.resh := rfl
@[simp] theorem setSources_presA : (s.setSources m).presA = s.presA := rfl
@[simp] theorem setSources_presB : (s.setSources m).presB = s.presB := rfl
@[simp] theorem setSources_spa : (s.setSources m).spa = s.spa := rfl
@[simp] theorem setSources_spb : (s.setSources m).spb = s.spb := rfl
@[simp] theorem setSources_fatal : (s.setSources m).fatal = s.fatal := rfl
@[simp] theorem setSources_fcause : (s.setSources m).fcause = s.fcause := rfl
@[simp] theorem setSources_cerr : (s.setSources m).cerr = s.cerr := rfl
@[simp] theorem setSources_bres : (s.setSources m).bres = s.bres := rfl
@[simp] theorem setSources_map : (s.setSources m).map = s.map := rfl
@[simp] theorem setSources_diag : (s.setSources m).diag = s.diag := rfl
@[simp] theorem setSources_sources : (s.setSources m).sources = m := rfl
@[simp] theorem setSources_portAnswers : (s.setSources m).portAnswers = s.portAnswers := rfl
@[simp] theorem setSources_portLog : (s.setSources m).portLog = s.portLog := rfl
@[simp] theorem setSources_pending : (s.setSources m).pending = s.pending := rfl
@[simp] theorem setSources_replies : (s.setSources m).replies = s.replies := rfl
@[simp] theorem setSources_config : (s.setSources m).config = s.config := rfl

end setSources

section initMap

variable (n : BitVec 17)

@[simp] theorem initMap_cfg : (s.initMap n).cfg = s.cfg := rfl
@[simp] theorem initMap_mapsize : (s.initMap n).mapsize = s.mapsize := rfl
@[simp] theorem initMap_nact : (s.initMap n).nact = n := rfl
@[simp] theorem initMap_srcid : (s.initMap n).srcid = s.srcid := rfl
@[simp] theorem initMap_srclenLo : (s.initMap n).srclenLo = s.srclenLo := rfl
@[simp] theorem initMap_srclenHi : (s.initMap n).srclenHi = s.srclenHi := rfl
@[simp] theorem initMap_blkidx : (s.initMap n).blkidx = s.blkidx := rfl
@[simp] theorem initMap_opa : (s.initMap n).opa = s.opa := rfl
@[simp] theorem initMap_res : (s.initMap n).res = s.res := rfl
@[simp] theorem initMap_resh : (s.initMap n).resh = s.resh := rfl
@[simp] theorem initMap_presA : (s.initMap n).presA = s.presA := rfl
@[simp] theorem initMap_presB : (s.initMap n).presB = s.presB := rfl
@[simp] theorem initMap_spa : (s.initMap n).spa = s.spa := rfl
@[simp] theorem initMap_spb : (s.initMap n).spb = s.spb := rfl
@[simp] theorem initMap_fatal : (s.initMap n).fatal = s.fatal := rfl
@[simp] theorem initMap_fcause : (s.initMap n).fcause = s.fcause := rfl
@[simp] theorem initMap_cerr : (s.initMap n).cerr = s.cerr := rfl
@[simp] theorem initMap_bres : (s.initMap n).bres = s.bres := rfl
@[simp] theorem initMap_map : (s.initMap n).map = some [] := rfl
@[simp] theorem initMap_diag : (s.initMap n).diag = s.diag := rfl
@[simp] theorem initMap_sources : (s.initMap n).sources = s.sources := rfl
@[simp] theorem initMap_portAnswers : (s.initMap n).portAnswers = s.portAnswers := rfl
@[simp] theorem initMap_portLog : (s.initMap n).portLog = s.portLog := rfl
@[simp] theorem initMap_pending : (s.initMap n).pending = s.pending := rfl
@[simp] theorem initMap_replies : (s.initMap n).replies = s.replies := rfl
@[simp] theorem initMap_config : (s.initMap n).config = s.config := rfl

end initMap

section request

variable (src : BitVec 16) (off : Nat)

@[simp] theorem request_cfg : (s.request src off).cfg = s.cfg := rfl
@[simp] theorem request_mapsize : (s.request src off).mapsize = s.mapsize := rfl
@[simp] theorem request_nact : (s.request src off).nact = s.nact := rfl
@[simp] theorem request_srcid : (s.request src off).srcid = s.srcid := rfl
@[simp] theorem request_srclenLo : (s.request src off).srclenLo = s.srclenLo := rfl
@[simp] theorem request_srclenHi : (s.request src off).srclenHi = s.srclenHi := rfl
@[simp] theorem request_blkidx : (s.request src off).blkidx = s.blkidx := rfl
@[simp] theorem request_opa : (s.request src off).opa = s.opa := rfl
@[simp] theorem request_res : (s.request src off).res = s.res := rfl
@[simp] theorem request_resh : (s.request src off).resh = s.resh := rfl
@[simp] theorem request_presA : (s.request src off).presA = s.presA := rfl
@[simp] theorem request_presB : (s.request src off).presB = s.presB := rfl
@[simp] theorem request_spa : (s.request src off).spa = s.spa := rfl
@[simp] theorem request_spb : (s.request src off).spb = s.spb := rfl
@[simp] theorem request_fatal : (s.request src off).fatal = s.fatal := rfl
@[simp] theorem request_fcause : (s.request src off).fcause = s.fcause := rfl
@[simp] theorem request_cerr : (s.request src off).cerr = s.cerr := rfl
@[simp] theorem request_bres : (s.request src off).bres = s.bres := rfl
@[simp] theorem request_map : (s.request src off).map = s.map := rfl
@[simp] theorem request_diag : (s.request src off).diag = s.diag := rfl
@[simp] theorem request_sources : (s.request src off).sources = s.sources := rfl
@[simp] theorem request_portAnswers : (s.request src off).portAnswers = s.portAnswers.tail := rfl
@[simp] theorem request_portLog : (s.request src off).portLog = s.portLog ++ [{ src := src, off := off }] := rfl
@[simp] theorem request_pending : (s.request src off).pending = s.pending := rfl
@[simp] theorem request_replies : (s.request src off).replies = s.replies := rfl
@[simp] theorem request_config : (s.request src off).config = s.config := rfl

end request

@[simp] theorem resetBlock_cfg : s.resetBlock.cfg = 0#1 := rfl
@[simp] theorem resetBlock_mapsize : s.resetBlock.mapsize = 0x3000#17 := rfl
@[simp] theorem resetBlock_nact : s.resetBlock.nact = 0#17 := rfl
@[simp] theorem resetBlock_srcid : s.resetBlock.srcid = 0#16 := rfl
@[simp] theorem resetBlock_srclenLo : s.resetBlock.srclenLo = 0#32 := rfl
@[simp] theorem resetBlock_srclenHi : s.resetBlock.srclenHi = 0#14 := rfl
@[simp] theorem resetBlock_blkidx : s.resetBlock.blkidx = 0#32 := rfl
@[simp] theorem resetBlock_opa : s.resetBlock.opa = 0#32 := rfl
@[simp] theorem resetBlock_res : s.resetBlock.res = 0#32 := rfl
@[simp] theorem resetBlock_resh : s.resetBlock.resh = 0#32 := rfl
@[simp] theorem resetBlock_presA : s.resetBlock.presA = 0#32 := rfl
@[simp] theorem resetBlock_presB : s.resetBlock.presB = 0#32 := rfl
@[simp] theorem resetBlock_spa : s.resetBlock.spa = Vector.replicate 16 0#8 := rfl
@[simp] theorem resetBlock_spb : s.resetBlock.spb = Vector.replicate 16 0#8 := rfl
@[simp] theorem resetBlock_fatal : s.resetBlock.fatal = false := rfl
@[simp] theorem resetBlock_fcause : s.resetBlock.fcause = .noCause := rfl
@[simp] theorem resetBlock_cerr : s.resetBlock.cerr = .ok := rfl
@[simp] theorem resetBlock_bres : s.resetBlock.bres = .noVerdict := rfl
@[simp] theorem resetBlock_map : s.resetBlock.map = none := rfl
@[simp] theorem resetBlock_diag : s.resetBlock.diag = s.diag := rfl
@[simp] theorem resetBlock_sources : s.resetBlock.sources = s.sources := rfl
@[simp] theorem resetBlock_portAnswers : s.resetBlock.portAnswers = s.portAnswers := rfl
@[simp] theorem resetBlock_portLog : s.resetBlock.portLog = s.portLog := rfl
@[simp] theorem resetBlock_pending : s.resetBlock.pending = s.pending := rfl
@[simp] theorem resetBlock_replies : s.resetBlock.replies = s.replies := rfl
@[simp] theorem resetBlock_config : s.resetBlock.config = s.config := rfl

/-! The accessors that read several fields, under the updates that leave those fields alone. -/

@[simp] theorem setCerr_mapv (c : CErr) : (s.setCerr c).mapv = s.mapv := rfl
@[simp] theorem setVerdict_mapv (v : BRes) : (s.setVerdict v).mapv = s.mapv := rfl
@[simp] theorem setResult_mapv (lo hi : Word) : (s.setResult lo hi).mapv = s.mapv := rfl
@[simp] theorem setPresA_mapv (w : Word) : (s.setPresA w).mapv = s.mapv := rfl
@[simp] theorem setPresB_mapv (w : Word) : (s.setPresB w).mapv = s.mapv := rfl
@[simp] theorem setBuffers_mapv (a b : SpareRecord) : (s.setBuffers a b).mapv = s.mapv := rfl
@[simp] theorem setCursor_mapv (i : BitVec 32) : (s.setCursor i).mapv = s.mapv := rfl
@[simp] theorem emit_mapv (r : DiagRecord) : (s.emit r).mapv = s.mapv := rfl
@[simp] theorem raiseFatal_mapv (c : FCause) (v : BRes) : (s.raiseFatal c v).mapv = s.mapv := rfl
@[simp] theorem setPending_mapv (rest : List Access) : (s.setPending rest).mapv = s.mapv := rfl
@[simp] theorem addReply_mapv (v : Word) : (s.addReply v).mapv = s.mapv := rfl
@[simp] theorem setSources_mapv (m : Memory) : (s.setSources m).mapv = s.mapv := rfl
@[simp] theorem request_mapv (src : BitVec 16) (off : Nat) : (s.request src off).mapv = s.mapv := rfl
@[simp] theorem setCerr_sourceLength (c : CErr) : (s.setCerr c).sourceLength = s.sourceLength := rfl
@[simp] theorem setVerdict_sourceLength (v : BRes) : (s.setVerdict v).sourceLength = s.sourceLength := rfl
@[simp] theorem setResult_sourceLength (lo hi : Word) : (s.setResult lo hi).sourceLength = s.sourceLength := rfl
@[simp] theorem setPresA_sourceLength (w : Word) : (s.setPresA w).sourceLength = s.sourceLength := rfl
@[simp] theorem setPresB_sourceLength (w : Word) : (s.setPresB w).sourceLength = s.sourceLength := rfl
@[simp] theorem setBuffers_sourceLength (a b : SpareRecord) : (s.setBuffers a b).sourceLength = s.sourceLength := rfl
@[simp] theorem setCursor_sourceLength (i : BitVec 32) : (s.setCursor i).sourceLength = s.sourceLength := rfl
@[simp] theorem emit_sourceLength (r : DiagRecord) : (s.emit r).sourceLength = s.sourceLength := rfl
@[simp] theorem raiseFatal_sourceLength (c : FCause) (v : BRes) : (s.raiseFatal c v).sourceLength = s.sourceLength := rfl
@[simp] theorem setSlot_sourceLength (i : Nat) (p : Slot) : (s.setSlot i p).sourceLength = s.sourceLength := rfl
@[simp] theorem setPending_sourceLength (rest : List Access) : (s.setPending rest).sourceLength = s.sourceLength := rfl
@[simp] theorem addReply_sourceLength (v : Word) : (s.addReply v).sourceLength = s.sourceLength := rfl
@[simp] theorem setSources_sourceLength (m : Memory) : (s.setSources m).sourceLength = s.sourceLength := rfl
@[simp] theorem initMap_sourceLength (n : BitVec 17) : (s.initMap n).sourceLength = s.sourceLength := rfl
@[simp] theorem request_sourceLength (src : BitVec 16) (off : Nat) : (s.request src off).sourceLength = s.sourceLength := rfl
@[simp] theorem setCerr_slotAt (c : CErr) (j : Nat) : (s.setCerr c).slotAt j = s.slotAt j := rfl
@[simp] theorem setVerdict_slotAt (v : BRes) (j : Nat) : (s.setVerdict v).slotAt j = s.slotAt j := rfl
@[simp] theorem setResult_slotAt (lo hi : Word) (j : Nat) : (s.setResult lo hi).slotAt j = s.slotAt j := rfl
@[simp] theorem setPresA_slotAt (w : Word) (j : Nat) : (s.setPresA w).slotAt j = s.slotAt j := rfl
@[simp] theorem setPresB_slotAt (w : Word) (j : Nat) : (s.setPresB w).slotAt j = s.slotAt j := rfl
@[simp] theorem setBuffers_slotAt (a b : SpareRecord) (j : Nat) : (s.setBuffers a b).slotAt j = s.slotAt j := rfl
@[simp] theorem setCursor_slotAt (i : BitVec 32) (j : Nat) : (s.setCursor i).slotAt j = s.slotAt j := rfl
@[simp] theorem emit_slotAt (r : DiagRecord) (j : Nat) : (s.emit r).slotAt j = s.slotAt j := rfl
@[simp] theorem raiseFatal_slotAt (c : FCause) (v : BRes) (j : Nat) : (s.raiseFatal c v).slotAt j = s.slotAt j := rfl
@[simp] theorem setPending_slotAt (rest : List Access) (j : Nat) : (s.setPending rest).slotAt j = s.slotAt j := rfl
@[simp] theorem addReply_slotAt (v : Word) (j : Nat) : (s.addReply v).slotAt j = s.slotAt j := rfl
@[simp] theorem setSources_slotAt (m : Memory) (j : Nat) : (s.setSources m).slotAt j = s.slotAt j := rfl
@[simp] theorem request_slotAt (src : BitVec 16) (off : Nat) (j : Nat) : (s.request src off).slotAt j = s.slotAt j := rfl

theorem setSlot_mapv (i : Nat) (p : Slot) : (s.setSlot i p).mapv = s.mapv := by
  cases h : s.map <;> simp [State.mapv, h]

end Sys2Proof.Machine
end

