-- ==== Sys2Proof/Laws/Ops.lean ====
section
/-! SUPPORT. What the shared operations can do, said once: acceptance (R93), the sequencing of a command's body (R230), the
slots of the map (R40) and one read at the port (R62). -/

namespace Sys2Proof.Machine

section Acceptance

variable {needsMap refused : Bool} {s t : State} {body : State → Out}

/-- Test 1 of R93. -/
theorem accept_halted (h : s.fatal = true) : accept needsMap refused s body = .next (s.setCerr .halted) := by
  simp [accept, cmdError, h]

/-- Test 3 of R93. -/
theorem accept_nomap (hf : s.fatal = false) (hn : needsMap = true) (hm : s.mapv = false) :
    accept needsMap refused s body = .next (s.setCerr .nomap) := by
  simp [accept, cmdError, hf, hn, hm]

/-- Test 4 of R93. -/
theorem accept_operand (hf : s.fatal = false) (hm : needsMap = true → s.mapv = true) (hr : refused = true) :
    accept needsMap refused s body = .next (s.setCerr .operand) := by
  have : ¬(needsMap = true ∧ s.mapv = false) := fun ⟨a, b⟩ => by simp [hm a] at b
  simp [accept, cmdError, hf, this, hr]

/-- A command that passes the tests of R93 runs its body with `CERR` at `OK`. -/
theorem accept_run (hf : s.fatal = false) (hm : needsMap = true → s.mapv = true) (hr : refused = false) :
    accept needsMap refused s body = body (s.setCerr .ok) := by
  have : ¬(needsMap = true ∧ s.mapv = false) := fun ⟨a, b⟩ => by simp [hm a] at b
  simp [accept, hf, this, hr]

/-- All that acceptance can do: a command error, which sets `CERR` alone, or the body. -/
theorem accept_cases (needsMap refused : Bool) (s : State) (body : State → Out) :
    (∃ c, c ≠ .ok ∧ accept needsMap refused s body = .next (s.setCerr c)) ∨
    (s.fatal = false ∧ (needsMap = true → s.mapv = true) ∧ refused = false ∧
      accept needsMap refused s body = body (s.setCerr .ok)) := by
  by_cases hf : s.fatal = true
  · exact .inl ⟨_, by decide, accept_halted hf⟩
  have hf : s.fatal = false := by simpa using hf
  by_cases hm : needsMap = true → s.mapv = true
  · by_cases hr : refused = true
    · exact .inl ⟨_, by decide, accept_operand hf hm hr⟩
    · have hr : refused = false := by simpa using hr
      exact .inr ⟨hf, hm, hr, accept_run hf hm hr⟩
  · have hm : needsMap = true ∧ s.mapv = false := by simpa using hm
    exact .inl ⟨_, by decide, accept_nomap hf hm.1 hm.2⟩

/-- What a next state of a command is. -/
theorem accept_next (h : accept needsMap refused s body = .next t) :
    (∃ c, c ≠ .ok ∧ t = s.setCerr c) ∨
    (s.fatal = false ∧ (needsMap = true → s.mapv = true) ∧ refused = false ∧ body (s.setCerr .ok) = .next t) := by
  rcases accept_cases needsMap refused s body with ⟨c, hc, e⟩ | ⟨hf, hm, hr, e⟩
  · rw [e] at h; cases h; exact .inl ⟨c, hc, rfl⟩
  · exact .inr ⟨hf, hm, hr, e ▸ h⟩

end Acceptance

section Sequencing

variable {o : Out} {f : State → Out} {s t : State}

theorem andThen_fatal (h : s.fatal = true) : andThen (.next s) f = .next s := by simp [andThen, h]

theorem andThen_run (h : s.fatal = false) : andThen (.next s) f = f s := by simp [andThen, h]

/-- What a next state of a sequence is: the first part's, where that raised a fatal condition, or the second's. -/
theorem andThen_next (h : andThen o f = .next t) :
    (o = .next t ∧ t.fatal = true) ∨ (∃ s, o = .next s ∧ s.fatal = false ∧ f s = .next t) := by
  cases o with
  | next s =>
    by_cases hf : s.fatal = true
    · rw [andThen_fatal hf] at h; cases h; exact .inl ⟨rfl, hf⟩
    · have hf : s.fatal = false := by simpa using hf
      exact .inr ⟨s, rfl, hf, by rwa [andThen_run hf] at h⟩
  | fault r => simp [andThen] at h
  | refused r => simp [andThen] at h

end Sequencing

/-- The slots after one was written: the new slot at its index, the old ones everywhere else. -/
theorem slotAt_setSlot {s : State} (h : s.mapv = true) (i j : Nat) (p : Slot) :
    (s.setSlot i p).slotAt j = if j = i then some p else s.slotAt j := by
  cases hm : s.map with
  | none => simp [State.mapv, hm] at h
  | some m => simp only [State.slotAt, setSlot_map, hm, Option.map_some, Sparse.get_put]

/-- A read at the port that the host serves gives the source's record (R62). -/
theorem portRead_bytes_iff (s : State) (src : BitVec 16) (off : Nat) (r : SpareRecord) :
    s.portRead src off = .bytes r ↔
      s.portAnswers.headD .serve = .serve ∧ ∀ k : Fin 16, s.sources.byteAt src (off + k.val) = some r[k] := by
  rw [← Memory.record_eq_some_iff]
  unfold State.portRead
  cases s.portAnswers.headD .serve <;> simp
  cases s.sources.record src off <;> simp

/-- A read at the port fails when the host says so or when some byte of the record is not there (R62). -/
theorem portRead_ioError_iff (s : State) (src : BitVec 16) (off : Nat) :
    s.portRead src off = .ioError ↔
      s.portAnswers.headD .serve = .ioError ∨
      (s.portAnswers.headD .serve = .serve ∧ ∃ k, k < 16 ∧ s.sources.byteAt src (off + k) = none) := by
  rw [← Memory.record_eq_none_iff]
  unfold State.portRead
  cases s.portAnswers.headD .serve <;> simp
  cases s.sources.record src off <;> simp

/-- The port is silent only when the host says so (U6). -/
theorem portRead_silent_iff (s : State) (src : BitVec 16) (off : Nat) :
    s.portRead src off = .silent ↔ s.portAnswers.headD .serve = .silent := by
  unfold State.portRead
  cases s.portAnswers.headD .serve <;> simp
  cases s.sources.record src off <;> simp

end Sys2Proof.Machine
end

