-- ==== Sys2Proof/Laws/Builder.lean ====
section
/-! SUPPORT. What the procedures of the map builder can do, said once: `loadsp` (R161), the reconciliation (R162), `claim`
(R163), the loop of `SRCSCAN` (R168). -/

namespace Sys2Proof.Machine

/-- Where the two records of the block under the cursor stand. -/
theorem loadsp_cases (s : State) :
    let a := offA s.sourceLength s.blkidx.toNat
    let b := offB s.sourceLength s.blkidx.toNat
    let s1 := s.request s.srcid a
    let s2 := s1.request s.srcid b
    (s.portRead s.srcid a = .silent ∧ loadsp s = .fault .portSilent) ∨
    (s.portRead s.srcid a = .ioError ∧ loadsp s = .next (s1.raiseFatal .io .fatalIo)) ∨
    (∃ ra, s.portRead s.srcid a = .bytes ra ∧
      ((s1.portRead s.srcid b = .silent ∧ loadsp s = .fault .portSilent) ∨
       (s1.portRead s.srcid b = .ioError ∧ loadsp s = .next (s2.raiseFatal .io .fatalIo)) ∨
       (∃ rb, s1.portRead s.srcid b = .bytes rb ∧
         loadsp s = .next ((s2.setBuffers ra rb).setVerdict .noVerdict)))) := by
  intro a b s1 s2
  unfold loadsp
  cases ha : s.portRead s.srcid a with
  | silent => exact .inl ⟨rfl, by simp [a] at ha; simp [ha]⟩
  | ioError => exact .inr (.inl ⟨rfl, by simp [a] at ha; simp [ha, s1, a]⟩)
  | bytes ra =>
    refine .inr (.inr ⟨ra, rfl, ?_⟩)
    simp [a] at ha
    cases hb : s1.portRead s.srcid b with
    | silent => exact .inl ⟨rfl, by simp [s1, a, b] at hb; simp [ha, hb]⟩
    | ioError => exact .inr (.inl ⟨rfl, by simp [s1, a, b] at hb; simp [ha, hb, s1, s2, a, b]⟩)
    | bytes rb => exact .inr (.inr ⟨rb, rfl, by simp [s1, a, b] at hb; simp [ha, hb, s1, s2, a, b]⟩)

/-- What a next state of `loadsp` is: a fatal `IO` after one request or after two, or both buffers filled. -/
theorem loadsp_next {s t : State} (h : loadsp s = .next t) :
    let a := offA s.sourceLength s.blkidx.toNat
    let b := offB s.sourceLength s.blkidx.toNat
    t = (s.request s.srcid a).raiseFatal .io .fatalIo ∨
    t = ((s.request s.srcid a).request s.srcid b).raiseFatal .io .fatalIo ∨
    ∃ ra rb, t = ((((s.request s.srcid a).request s.srcid b).setBuffers ra rb).setVerdict .noVerdict) := by
  rcases loadsp_cases s with ⟨-, e⟩ | ⟨-, e⟩ | ⟨ra, -, ⟨-, e⟩ | ⟨-, e⟩ | ⟨rb, -, e⟩⟩ <;> rw [e] at h <;> cases h
  · exact .inl rfl
  · exact .inr (.inl rfl)
  · exact .inr (.inr ⟨ra, rb, rfl⟩)

/-- The table of R162, read by its verdicts. -/
theorem reconcile_cases (a b : ParseResult) :
    ((a.cls = .blank ∨ b.cls = .blank) ∧ reconcile a b = .skipBlank) ∨
    (a.cls = .invalid ∧ b.cls = .invalid ∧ reconcile a b = .skipInvalid) ∨
    (a.cls = .index ∧ b.cls = .index ∧ a.idx ≠ b.idx ∧ reconcile a b = .mismatch a.idx b.idx) ∨
    (a.cls = .index ∧ (b.cls = .invalid ∨ b.cls = .index ∧ a.idx = b.idx) ∧ reconcile a b = .goOn a.idx) ∨
    (a.cls = .invalid ∧ b.cls = .index ∧ reconcile a b = .goOn b.idx) := by
  cases ha : a.cls <;> cases hb : b.cls <;> simp [reconcile, ha, hb]
  by_cases h : a.idx = b.idx <;> simp [h]

/-- All that steps 6 and 7 can do to an index (R163). -/
theorem claimIndex_cases (idx : BitVec 16) (s : State) :
    (s.nact.toNat ≤ idx.toNat ∧ claimIndex idx s = (s.emit (s.diagRecord .range idx)).setVerdict .dropRange) ∨
    (idx.toNat < s.nact.toNat ∧ ∃ p, s.slotAt idx.toNat = some p ∧
      claimIndex idx s =
        (s.emit { s.diagRecord .duplicate idx with psrc := p.src, pblk := p.blk }).raiseFatal .duplicate .fatalDup) ∨
    (idx.toNat < s.nact.toNat ∧ s.slotAt idx.toNat = none ∧
      claimIndex idx s = (s.setSlot idx.toNat { src := s.srcid, blk := s.blkidx }).setVerdict .claimed) := by
  by_cases h : s.nact.toNat ≤ idx.toNat
  · exact .inl ⟨h, by simp [claimIndex, h]⟩
  have h' : idx.toNat < s.nact.toNat := by omega
  cases hs : s.slotAt idx.toNat with
  | some p => exact .inr (.inl ⟨h', p, rfl, by simp [claimIndex, h, hs]⟩)
  | none => exact .inr (.inr ⟨h', rfl, by simp [claimIndex, h, hs]⟩)

/-- The state in which both parses of a claim stand in their registers (R163). -/
def State.withParses (s : State) (variant : BitVec 1) : State :=
  (s.setPresA (s.parseA variant).word).setPresB (s.parseB variant).word

@[simp] theorem withParses_cfg (s : State) (v : BitVec 1) : (s.withParses v).cfg = s.cfg := rfl
@[simp] theorem withParses_mapsize (s : State) (v : BitVec 1) : (s.withParses v).mapsize = s.mapsize := rfl
@[simp] theorem withParses_nact (s : State) (v : BitVec 1) : (s.withParses v).nact = s.nact := rfl
@[simp] theorem withParses_srcid (s : State) (v : BitVec 1) : (s.withParses v).srcid = s.srcid := rfl
@[simp] theorem withParses_srclenLo (s : State) (v : BitVec 1) : (s.withParses v).srclenLo = s.srclenLo := rfl
@[simp] theorem withParses_srclenHi (s : State) (v : BitVec 1) : (s.withParses v).srclenHi = s.srclenHi := rfl
@[simp] theorem withParses_blkidx (s : State) (v : BitVec 1) : (s.withParses v).blkidx = s.blkidx := rfl
@[simp] theorem withParses_opa (s : State) (v : BitVec 1) : (s.withParses v).opa = s.opa := rfl
@[simp] theorem withParses_res (s : State) (v : BitVec 1) : (s.withParses v).res = s.res := rfl
@[simp] theorem withParses_resh (s : State) (v : BitVec 1) : (s.withParses v).resh = s.resh := rfl
@[simp] theorem withParses_spa (s : State) (v : BitVec 1) : (s.withParses v).spa = s.spa := rfl
@[simp] theorem withParses_spb (s : State) (v : BitVec 1) : (s.withParses v).spb = s.spb := rfl
@[simp] theorem withParses_fatal (s : State) (v : BitVec 1) : (s.withParses v).fatal = s.fatal := rfl
@[simp] theorem withParses_fcause (s : State) (v : BitVec 1) : (s.withParses v).fcause = s.fcause := rfl
@[simp] theorem withParses_cerr (s : State) (v : BitVec 1) : (s.withParses v).cerr = s.cerr := rfl
@[simp] theorem withParses_bres (s : State) (v : BitVec 1) : (s.withParses v).bres = s.bres := rfl
@[simp] theorem withParses_map (s : State) (v : BitVec 1) : (s.withParses v).map = s.map := rfl
@[simp] theorem withParses_diag (s : State) (v : BitVec 1) : (s.withParses v).diag = s.diag := rfl
@[simp] theorem withParses_sources (s : State) (v : BitVec 1) : (s.withParses v).sources = s.sources := rfl
@[simp] theorem withParses_portAnswers (s : State) (v : BitVec 1) : (s.withParses v).portAnswers = s.portAnswers := rfl
@[simp] theorem withParses_portLog (s : State) (v : BitVec 1) : (s.withParses v).portLog = s.portLog := rfl
@[simp] theorem withParses_pending (s : State) (v : BitVec 1) : (s.withParses v).pending = s.pending := rfl
@[simp] theorem withParses_replies (s : State) (v : BitVec 1) : (s.withParses v).replies = s.replies := rfl
@[simp] theorem withParses_config (s : State) (v : BitVec 1) : (s.withParses v).config = s.config := rfl
@[simp] theorem withParses_presA (s : State) (v : BitVec 1) : (s.withParses v).presA = (s.parseA v).word := rfl
@[simp] theorem withParses_presB (s : State) (v : BitVec 1) : (s.withParses v).presB = (s.parseB v).word := rfl

/-- All that `claim` can do (R163): skip, end fatally, drop, or claim one slot. -/
theorem claim_cases (v : BitVec 1) (s : State) :
    let s1 := s.withParses v
    (reconcile (s.parseA v) (s.parseB v) = .skipBlank ∧ claim v s = s1.setVerdict .skipBlank) ∨
    (reconcile (s.parseA v) (s.parseB v) = .skipInvalid ∧ claim v s = s1.setVerdict .skipInvalid) ∨
    (∃ x y, x ≠ y ∧ reconcile (s.parseA v) (s.parseB v) = .mismatch x y ∧ claim v s = claimMismatch x y s1) ∨
    (∃ idx, reconcile (s.parseA v) (s.parseB v) = .goOn idx ∧ claim v s = claimIndex idx s1) := by
  intro s1
  rcases reconcile_cases (s.parseA v) (s.parseB v) with
    ⟨-, e⟩ | ⟨-, -, e⟩ | ⟨-, -, hne, e⟩ | ⟨-, -, e⟩ | ⟨-, -, e⟩
  · exact .inl ⟨e, by simp only [claim, e]; rfl⟩
  · exact .inr (.inl ⟨e, by simp only [claim, e]; rfl⟩)
  · exact .inr (.inr (.inl ⟨_, _, hne, e, by simp only [claim, e]; rfl⟩))
  · exact .inr (.inr (.inr ⟨_, e, by simp only [claim, e]; rfl⟩))
  · exact .inr (.inr (.inr ⟨_, e, by simp only [claim, e]; rfl⟩))

/-- One turn of the loop of `SRCSCAN`, by how it ends. -/
theorem scanBlocks_succ_next {v : BitVec 1} {n : Nat} {s t : State} (h : scanBlocks v (n + 1) s = .next t) :
    (loadsp s = .next t ∧ t.fatal = true) ∨
    ∃ s1, loadsp s = .next s1 ∧ s1.fatal = false ∧
      ((t = claim v s1 ∧ t.fatal = true) ∨
       ((claim v s1).fatal = false ∧
         scanBlocks v n ((claim v s1).setCursor ((claim v s1).blkidx + 1)) = .next t)) := by
  rcases andThen_next h with ⟨e, hf⟩ | ⟨s1, e, hf, h⟩
  · exact .inl ⟨e, hf⟩
  refine .inr ⟨s1, e, hf, ?_⟩
  rcases andThen_next h with ⟨e, hf⟩ | ⟨s2, e, hf, h⟩ <;> cases e
  · exact .inl ⟨rfl, hf⟩
  · exact .inr ⟨hf, h⟩

/-- What every turn of the loop of `SRCSCAN` keeps, the whole loop keeps. -/
theorem scanBlocks_keeps {P : State → Prop} {v : BitVec 1} (hload : ∀ s t, P s → loadsp s = .next t → P t)
    (hclaim : ∀ s, P s → s.fatal = false → P (claim v s)) (hcursor : ∀ s i, P s → P (s.setCursor i)) :
    ∀ n s t, P s → scanBlocks v n s = .next t → P t := by
  intro n
  induction n with
  | zero => intro s t hs h; cases h; exact hs
  | succ n ih =>
    intro s t hs h
    rcases scanBlocks_succ_next h with ⟨e, -⟩ | ⟨s1, e, hf, ⟨rfl, -⟩ | ⟨-, h⟩⟩
    · exact hload _ _ hs e
    · exact hclaim _ (hload _ _ hs e) hf
    · exact ih _ _ (hcursor _ _ (hclaim _ (hload _ _ hs e) hf)) h

end Sys2Proof.Machine
end

