-- ==== Sys2Proof/Laws/Ecc.lean ====
section
/-! SUPPORT. The laws of the codec: the default table has the properties of R111, and what `correct` can answer. -/

namespace Sys2Proof.Machine

/-- The bits of a 7-bit value written bit by bit. -/
theorem sevenBits : ∀ a b c d e f g : Bool,
    let v : BitVec 7 := BitVec.ofBool g ++ (BitVec.ofBool f ++ (BitVec.ofBool e ++ (BitVec.ofBool d ++
      (BitVec.ofBool c ++ (BitVec.ofBool b ++ BitVec.ofBool a)))))
    v.getLsbD 0 = a ∧ v.getLsbD 1 = b ∧ v.getLsbD 2 = c ∧ v.getLsbD 3 = d ∧ v.getLsbD 4 = e ∧ v.getLsbD 5 = f ∧
      v.getLsbD 6 = g := by decide

/-- The bits of an entry of the default table (R110). -/
theorem eccEntry_bits (x : Byte) :
    (eccEntry x).getLsbD 0 = (x.getLsbD 0 ^^ x.getLsbD 2 ^^ x.getLsbD 4 ^^ x.getLsbD 6) ∧
    (eccEntry x).getLsbD 1 = (x.getLsbD 1 ^^ x.getLsbD 3 ^^ x.getLsbD 5 ^^ x.getLsbD 7) ∧
    (eccEntry x).getLsbD 2 = (x.getLsbD 0 ^^ x.getLsbD 1 ^^ x.getLsbD 4 ^^ x.getLsbD 5) ∧
    (eccEntry x).getLsbD 3 = (x.getLsbD 2 ^^ x.getLsbD 3 ^^ x.getLsbD 6 ^^ x.getLsbD 7) ∧
    (eccEntry x).getLsbD 4 = (x.getLsbD 0 ^^ x.getLsbD 1 ^^ x.getLsbD 2 ^^ x.getLsbD 3) ∧
    (eccEntry x).getLsbD 5 = (x.getLsbD 4 ^^ x.getLsbD 5 ^^ x.getLsbD 6 ^^ x.getLsbD 7) ∧
    (eccEntry x).getLsbD 6 = parity8 x := by
  exact sevenBits _ _ _ _ _ _ _

theorem xor4_xor4 (a b c d a' b' c' d' : Bool) :
    ((a ^^ a') ^^ (b ^^ b') ^^ (c ^^ c') ^^ (d ^^ d')) = ((a ^^ b ^^ c ^^ d) ^^ (a' ^^ b' ^^ c' ^^ d')) := by
  cases a <;> cases b <;> cases c <;> cases d <;> simp

theorem parity8_xor (x y : Byte) : parity8 (x ^^^ y) = (parity8 x ^^ parity8 y) := by
  have h : ∀ z : Byte, parity8 z = ((z.getLsbD 0 ^^ z.getLsbD 1 ^^ z.getLsbD 2 ^^ z.getLsbD 3) ^^
      (z.getLsbD 4 ^^ z.getLsbD 5 ^^ z.getLsbD 6 ^^ z.getLsbD 7)) := by
    intro z; simp [parity8]
  simp only [h, BitVec.getLsbD_xor, xor4_xor4]
  generalize (x.getLsbD 0 ^^ x.getLsbD 1 ^^ x.getLsbD 2 ^^ x.getLsbD 3) = a
  generalize (y.getLsbD 0 ^^ y.getLsbD 1 ^^ y.getLsbD 2 ^^ y.getLsbD 3) = b
  generalize (x.getLsbD 4 ^^ x.getLsbD 5 ^^ x.getLsbD 6 ^^ x.getLsbD 7) = c
  generalize (y.getLsbD 4 ^^ y.getLsbD 5 ^^ y.getLsbD 6 ^^ y.getLsbD 7) = d
  cases a <;> cases b <;> cases c <;> cases d <;> rfl

/-- The default table has the properties P1 to P3 of R111. -/
theorem eccEntry_laws : EccLaws eccEntry where
  linear x y := by
    obtain ⟨x0, x1, x2, x3, x4, x5, x6⟩ := eccEntry_bits x
    obtain ⟨y0, y1, y2, y3, y4, y5, y6⟩ := eccEntry_bits y
    obtain ⟨z0, z1, z2, z3, z4, z5, z6⟩ := eccEntry_bits (x ^^^ y)
    apply BitVec.eq_of_getLsbD_eq
    intro i hi
    have : i = 0 ∨ i = 1 ∨ i = 2 ∨ i = 3 ∨ i = 4 ∨ i = 5 ∨ i = 6 := by omega
    rcases this with rfl | rfl | rfl | rfl | rfl | rfl | rfl <;>
      simp only [BitVec.getLsbD_xor, x0, x1, x2, x3, x4, x5, x6, y0, y1, y2, y3, y4, y5, y6, z0, z1, z2, z3, z4, z5, z6,
        xor4_xor4, parity8_xor]
  flag x := (eccEntry_bits x).2.2.2.2.2.2
  singleBit b := by revert b; decide

/-- A block with the default parameters reads the default table. -/
theorem defaultConfig_ecc : defaultConfig.ecc = eccEntry := by
  funext x
  simp [Config.ecc, defaultConfig, defaultEccTable]

/-- All that `correct` can answer (R114), by the syndrome. -/
theorem correct_cases (d0 d1 stored computed : Byte) :
    (popcount (stored ^^^ computed) ≤ 1 ∧ correct d0 d1 stored computed = ⟨.ok, 0, d0, d1⟩) ∨
    (1 < popcount (stored ^^^ computed) ∧ pairTestFails (stored ^^^ computed) = true ∧
      correct d0 d1 stored computed = ⟨.uncorrectable, 0, d0, d1⟩) ∨
    (1 < popcount (stored ^^^ computed) ∧ pairTestFails (stored ^^^ computed) = false ∧
      ∃ e0 e1, correct d0 d1 stored computed = ⟨.corrected, syndromePosition (stored ^^^ computed), e0, e1⟩ ∧
        ((syndromePosition (stored ^^^ computed)).getLsbD 3 = false ∧
            e0 = d0 ^^^ positionMask (syndromePosition (stored ^^^ computed)) ∧ e1 = d1 ∨
          (syndromePosition (stored ^^^ computed)).getLsbD 3 = true ∧
            e0 = d0 ∧ e1 = d1 ^^^ positionMask (syndromePosition (stored ^^^ computed)))) := by
  by_cases h1 : popcount (stored ^^^ computed) ≤ 1
  · exact .inl ⟨h1, by simp [correct, h1]⟩
  have h1' : 1 < popcount (stored ^^^ computed) := by omega
  by_cases h2 : pairTestFails (stored ^^^ computed) = true
  · exact .inr (.inl ⟨h1', h2, by simp [correct, h1, h2]⟩)
  refine .inr (.inr ⟨h1', by simpa using h2, ?_⟩)
  by_cases h3 : (syndromePosition (stored ^^^ computed)).getLsbD 3 = false
  · exact ⟨_, _, by simp only [correct, if_neg h1, if_neg h2, if_pos h3]; exact ⟨rfl, .inl ⟨h3, rfl, rfl⟩⟩⟩
  · exact ⟨_, _, by simp only [correct, if_neg h1, if_neg h2, if_neg h3]; exact ⟨rfl, .inr ⟨by simpa using h3, rfl, rfl⟩⟩⟩

end Sys2Proof.Machine
end

