-- ==== Sys2Proof/Laws/Exec.lean ====
section
/-! SUPPORT. What `exec` is for each command, in terms of acceptance and the command's body, and what a step is for each
access: the lemmas a proof about the machine rewrites with. -/

namespace Sys2Proof.Machine

section Commands

variable (s : State)

theorem exec_eccdec : exec .eccdec s = accept false false s fun t =>
    .next (t.setResult ((eccDecode t.config.ecc t.opaD0 t.opaD1).setWidth 32) 0#32) := rfl

theorem exec_ecccor : exec .ecccor s = accept false false s fun t =>
    .next (t.setResult ((correct t.opaD0 t.opaD1 t.opaStored t.opaComputed).word t.opaComputed) 0#32) := rfl

theorem exec_eccfix : exec .eccfix s = accept false false s fun t =>
    .next (t.setResult ((correct t.opaD0 t.opaD1 t.opaStored (eccDecode t.config.ecc t.opaD0 t.opaD1)).word
      (eccDecode t.config.ecc t.opaD0 t.opaD1)) 0#32) := rfl

theorem exec_parse : exec .parse s = accept false false s fun t =>
    if t.opaSel = false then .next (t.setPresA (t.parseA t.cfg).word) else .next (t.setPresB (t.parseB t.cfg).word) := rfl

theorem exec_loadsp : exec .loadsp s = accept false s.cursorBeyondSource s loadsp := rfl

theorem exec_blkclaim : exec .blkclaim s = accept true false s fun t => .next (claim t.cfg t) := rfl

theorem exec_blkscan : exec .blkscan s = accept true s.cursorBeyondSource s fun t =>
    andThen (loadsp t) fun t1 => .next (claim t.cfg t1) := rfl

theorem exec_srcscan : exec .srcscan s = accept true false s fun t =>
    scanBlocks t.cfg (numBlocks t.sourceLength) ((t.setCursor 0#32).setVerdict .noVerdict) := rfl

theorem exec_mapinit : exec .mapinit s = accept false s.mapsizeTooLarge s fun t =>
    .next ((t.initMap t.mapsize).setVerdict .noVerdict) := rfl

theorem exec_mapget : exec .mapget s = accept true s.indexBeyondMap s fun t =>
    match t.slotAt t.opaIndex with
    | some p => .next (t.setResult p.blk (mappedWord p.src))
    | none => .next (t.setResult 0#32 0#32) := rfl

theorem exec_srst : exec .srst s = .next s.resetBlock := rfl

end Commands

section Steps

variable {s : State} {rest : List Access}

theorem step_idle (h : s.pending = []) : step s = .next s := by simp [step, hostStep, h]

theorem step_read {r : Fin 64} (h : s.pending = .read r :: rest) :
    step s = .next ((s.setPending rest).addReply (regRead (s.setPending rest) r)) := by
  simp [step, hostStep, h, perform]

theorem step_write {r : Fin 64} {v : Word} (h : s.pending = .write r v :: rest) :
    step s = regWrite r v (s.setPending rest) := by
  simp [step, hostStep, h, perform]

theorem step_reset (h : s.pending = .reset :: rest) :
    step s = .next (s.setPending rest).resetBlock := by
  simp [step, hostStep, h, perform]

theorem step_serve {src : BitVec 16} {off : BitVec 46} {byte : Option Byte}
    (h : s.pending = .serve src off byte :: rest) :
    step s = .next ((s.setPending rest).setSources (s.sources.set src off byte)) := by
  simp [step, hostStep, h, perform]

/-- All that a write by number can do: issue a command, store in a register, or nothing. -/
theorem regWrite_cases (r : Fin 64) (v : Word) (s : State) :
    (r = 0 ∧ regWrite r v s = issue v s) ∨
    (∃ reg, reg ≠ .cmd ∧ regOfNumber r = some reg ∧ regWrite r v s = .next (writeReg s reg v)) ∨
    (regOfNumber r = none ∧ regWrite r v s = .next s) := by
  unfold regWrite
  cases hr : regOfNumber r with
  | none => exact .inr (.inr ⟨rfl, rfl⟩)
  | some reg =>
    by_cases hc : reg = .cmd
    · subst hc
      exact .inl ⟨by revert hr; revert r; decide, rfl⟩
    · exact .inr (.inl ⟨reg, hc, rfl, by cases reg <;> first | exact absurd rfl hc | rfl⟩)

end Steps

/-- The number of a register names it (R24). -/
@[simp] theorem regOfNumber_number (reg : Reg) : regOfNumber reg.number = some reg := by
  cases reg with
  | spa k => revert k; decide
  | spb k => revert k; decide
  | _ => rfl

/-- A read by a register's number is a read of the register (R23, R24). -/
@[simp] theorem regRead_number (s : State) (reg : Reg) : regRead s reg.number = readReg s reg := by
  simp [regRead]

/-- A write by the number of a register that is not `CMD` stores in the register (R23). -/
theorem regWrite_number {reg : Reg} (h : reg ≠ .cmd) (v : Word) (s : State) :
    regWrite reg.number v s = .next (writeReg s reg v) := by
  simp only [regWrite, regOfNumber_number]

/-- A write to a register of the host reaches nothing that the engine alone writes. -/
theorem writeReg_engine (s : State) (reg : Reg) (v : Word) :
    (writeReg s reg v).nact = s.nact ∧ (writeReg s reg v).res = s.res ∧ (writeReg s reg v).resh = s.resh ∧
    (writeReg s reg v).presA = s.presA ∧ (writeReg s reg v).presB = s.presB ∧ (writeReg s reg v).fatal = s.fatal ∧
    (writeReg s reg v).fcause = s.fcause ∧ (writeReg s reg v).cerr = s.cerr ∧ (writeReg s reg v).bres = s.bres ∧
    (writeReg s reg v).map = s.map ∧ (writeReg s reg v).diag = s.diag ∧ (writeReg s reg v).sources = s.sources ∧
    (writeReg s reg v).portAnswers = s.portAnswers ∧ (writeReg s reg v).portLog = s.portLog ∧
    (writeReg s reg v).pending = s.pending ∧ (writeReg s reg v).replies = s.replies ∧
    (writeReg s reg v).config = s.config := by
  cases reg <;> simp [writeReg]

end Sys2Proof.Machine
end

