-- ==== Sys2Proof/Laws/Flags.lean ====
section
/-! SUPPORT. The fields of the packed words of Machine/Flags.lean, read back: `STATUS` (R26), `RES` (R34), `PRES_A` and
`PRES_B` (R35), `RESH` after a `MAPGET` (R201). -/

namespace Sys2Proof.Machine

section Extraction

variable {m n : Nat}

/-- A field inside the low part of a concatenation. -/
theorem extract_low (x : BitVec m) (y : BitVec n) {k l : Nat} (h : k + l ≤ n) :
    (x ++ y).extractLsb' k l = y.extractLsb' k l := by
  ext i hi
  simp [BitVec.getLsbD_append, show k + i < n by omega]

/-- A field inside the high part of a concatenation. -/
theorem extract_high (x : BitVec m) (y : BitVec n) {k l : Nat} (h : n ≤ k) :
    (x ++ y).extractLsb' k l = x.extractLsb' (k - n) l := by
  ext i hi
  simp [BitVec.getLsbD_append, show ¬ k + i < n by omega, show k + i - n = k - n + i by omega]

/-- The whole of a vector as a field. -/
theorem extract_whole (x : BitVec m) : x.extractLsb' 0 m = x := by simp

/-- A position in the five bits of its field (R34, R35, conflict C1). -/
theorem positionField (pos : BitVec 4) : (0#1 ++ pos : BitVec (1 + 4)) = pos.setWidth 5 := by
  revert pos; decide

end Extraction

/-- The fields of `STATUS`, by their codes (R26). -/
theorem statusWord_fields (s : State) :
    s.statusWord.getLsbD 0 = s.mapv ∧ s.statusWord.getLsbD 1 = s.fatal ∧
    s.statusWord.extractLsb' 2 2 = s.fcause.code ∧ s.statusWord.extractLsb' 4 4 = s.cerr.code ∧
    s.statusWord.extractLsb' 8 3 = s.bres.code ∧ s.statusWord.extractLsb' 11 21 = 0#21 := by
  unfold State.statusWord
  refine ⟨?_, ?_, ?_, ?_, ?_, ?_⟩
  · simp only [BitVec.getLsbD_append]; simp
  · simp only [BitVec.getLsbD_append]; simp
  · rw [extract_low _ _ (by decide), extract_low _ _ (by decide), extract_low _ _ (by decide),
      extract_high _ _ (by decide), extract_whole]
  · rw [extract_low _ _ (by decide), extract_low _ _ (by decide), extract_high _ _ (by decide), extract_whole]
  · rw [extract_low _ _ (by decide), extract_high _ _ (by decide), extract_whole]
  · rw [extract_high _ _ (by decide), extract_whole]

/-- The fields of `RES` after a correction (R34). -/
theorem correctionWord_fields (computed d1 d0 : Byte) (pos : BitVec 4) (out : EccOutcome) :
    (correctionWord computed d1 d0 pos out).extractLsb' 0 2 = out.code ∧
    (correctionWord computed d1 d0 pos out).extractLsb' 2 5 = pos.setWidth 5 ∧
    (correctionWord computed d1 d0 pos out).getLsbD 7 = false ∧
    (correctionWord computed d1 d0 pos out).extractLsb' 8 8 = d0 ∧
    (correctionWord computed d1 d0 pos out).extractLsb' 16 8 = d1 ∧
    (correctionWord computed d1 d0 pos out).extractLsb' 24 8 = computed := by
  unfold correctionWord
  refine ⟨?_, ?_, ?_, ?_, ?_, ?_⟩
  · rw [extract_low _ _ (by decide), extract_low _ _ (by decide), extract_low _ _ (by decide),
      extract_low _ _ (by decide), extract_low _ _ (by decide), extract_whole]
  · rw [extract_low _ _ (by decide), extract_low _ _ (by decide), extract_low _ _ (by decide),
      extract_low _ _ (by decide), extract_high _ _ (by decide), ← positionField]
    exact extract_whole _
  · simp only [BitVec.getLsbD_append]; simp
  · rw [extract_low _ _ (by decide), extract_low _ _ (by decide), extract_high _ _ (by decide), extract_whole]
  · rw [extract_low _ _ (by decide), extract_high _ _ (by decide), extract_whole]
  · rw [extract_high _ _ (by decide), extract_whole]

/-- The fields of `PRES_A` or `PRES_B` after a parse (R35). -/
theorem parseWord_fields (idx : BitVec 16) (pos : BitVec 4) (out : EccOutcome) (cls : ParseClass) :
    (parseWord idx pos out cls).extractLsb' 0 2 = cls.code ∧
    (parseWord idx pos out cls).extractLsb' 2 2 = out.code ∧
    (parseWord idx pos out cls).extractLsb' 4 5 = pos.setWidth 5 ∧
    (parseWord idx pos out cls).getLsbD 8 = false ∧
    (parseWord idx pos out cls).extractLsb' 9 7 = 0#7 ∧
    (parseWord idx pos out cls).extractLsb' 16 16 = idx := by
  unfold parseWord
  refine ⟨?_, ?_, ?_, ?_, ?_, ?_⟩
  · rw [extract_low _ _ (by decide), extract_low _ _ (by decide), extract_low _ _ (by decide),
      extract_low _ _ (by decide), extract_whole]
  · rw [extract_low _ _ (by decide), extract_low _ _ (by decide), extract_low _ _ (by decide),
      extract_high _ _ (by decide), extract_whole]
  · rw [extract_low _ _ (by decide), extract_low _ _ (by decide), extract_high _ _ (by decide), ← positionField]
    exact extract_whole _
  · simp only [BitVec.getLsbD_append]; simp
  · rw [extract_low _ _ (by decide), extract_high _ _ (by decide), extract_whole]
  · rw [extract_high _ _ (by decide), extract_whole]

/-- The fields of `RESH` after a `MAPGET` of a mapped slot (R34, R201). -/
theorem mappedWord_fields (src : BitVec 16) :
    (mappedWord src).extractLsb' 0 16 = src ∧ (mappedWord src).extractLsb' 16 15 = 0#15 ∧
    (mappedWord src).getLsbD 31 = true := by
  unfold mappedWord
  refine ⟨?_, ?_, ?_⟩
  · rw [extract_low _ _ (by decide), extract_low _ _ (by decide), extract_whole]
  · rw [extract_low _ _ (by decide), extract_high _ _ (by decide), extract_whole]
  · simp only [BitVec.getLsbD_append]; simp

end Sys2Proof.Machine
end

