-- ==== Sys2Proof/Laws/PerInstr.lean ====
section
/-! SUPPORT. What is true of every command as syntax, one lemma for each. -/

namespace Sys2Proof.Laws

/-- The word of the command has `RSV` zero and a nonzero `OPC` (R90, R96), and the command is well formed. -/
def WordForm.Statement (i : Instr) : Prop :=
  i.wellFormed = true ∧ reservedField (encode i) = 0#24 ∧ opcodeField (encode i) = opcode i ∧ opcode i ≠ 0#8

theorem WordForm.eccdec : WordForm.Statement .eccdec := by unfold WordForm.Statement; decide
theorem WordForm.ecccor : WordForm.Statement .ecccor := by unfold WordForm.Statement; decide
theorem WordForm.eccfix : WordForm.Statement .eccfix := by unfold WordForm.Statement; decide
theorem WordForm.parse : WordForm.Statement .parse := by unfold WordForm.Statement; decide
theorem WordForm.loadsp : WordForm.Statement .loadsp := by unfold WordForm.Statement; decide
theorem WordForm.blkclaim : WordForm.Statement .blkclaim := by unfold WordForm.Statement; decide
theorem WordForm.blkscan : WordForm.Statement .blkscan := by unfold WordForm.Statement; decide
theorem WordForm.srcscan : WordForm.Statement .srcscan := by unfold WordForm.Statement; decide
theorem WordForm.mapinit : WordForm.Statement .mapinit := by unfold WordForm.Statement; decide
theorem WordForm.mapget : WordForm.Statement .mapget := by unfold WordForm.Statement; decide
theorem WordForm.srst : WordForm.Statement .srst := by unfold WordForm.Statement; decide

end Sys2Proof.Laws
end

