-- ==== Sys2Proof/Tests/Slice0.lean ====
section
/-! SUPPORT. Tests of the model, expected values from the spec: the words of 30_encoding.md R92, the table of R110 and the
vectors of 95_test_vectors.md, each named where it is used; and, for every statement with hypotheses, a concrete state and
operands that meet them (the theorems that begin witness). -/

namespace Sys2Proof.Tests

open Sys2Proof Sys2Proof.Machine

/-! ## Small states -/

/-- The outcome is a next state with the property. -/
def nextWith (o : Out) (p : State → Bool) : Bool :=
  match o with
  | .next t => p t
  | .fault _ => false
  | .refused _ => false

/-- A record whose bytes 0 to 12 are erased and whose protected field is given. -/
def recordOf (f0 f1 f2 : Byte) : SpareRecord :=
  ⟨(List.replicate 13 0xFF#8 ++ [f0, f1, f2]).toArray, by simp⟩

/-- Source memory with one spare record more. -/
def putRecord (m : Memory) (src : BitVec 16) (off : Nat) (r : SpareRecord) : Memory :=
  (List.finRange 16).foldl (fun m k => m.set src (BitVec.ofNat 46 (off + k.val)) (some r[k])) m

/-- A map of four slots with slot 1 claimed by source 9, block 100, and block 7 of source 2 in hand: the start of V-CLM. -/
def claimStart (a b : SpareRecord) : State :=
  { State.reset with
    mapsize := 4#17, nact := 4#17, srcid := 2#16, blkidx := 7#32, spa := a, spb := b
    map := some [(1, ⟨9#16, 100#32⟩)] }

/-- Source 0 of one block, 16896 bytes: copy A at 0x4000 and copy B at 0x41F0, and an empty map of four slots. -/
def oneBlock (a b : SpareRecord) : State :=
  { State.reset with
    nact := 4#17, map := some [], srclenLo := 16896#32
    sources := putRecord (putRecord [] 0#16 0x4000 a) 0#16 0x41F0 b }

/-- Source 0 of two blocks, 33792 bytes, with the records at 0x8000, 0x81F0, 0x8200 and 0x83F0. -/
def twoBlocks (a0 b0 a1 b1 : SpareRecord) : State :=
  { State.reset with
    nact := 4#17, map := some [], srclenLo := 33792#32
    sources := putRecord (putRecord (putRecord (putRecord [] 0#16 0x8000 a0) 0#16 0x81F0 b0) 0#16 0x8200 a1) 0#16 0x83F0 b1 }

/-- The reset state with an operand. -/
def withOpa (v : Word) : State := { State.reset with opa := v }

/-- The reset state with the host's next access. -/
def withAccess (a : Access) : State := { State.reset with pending := [a] }

/-! ## Well-formedness: what a disciplined program stays off (D35, U7, U8). No command word has an operand, so no `Instr` is
ill formed. -/

theorem test_wellFormed_refuses_reserved_read : (Access.read 17).wellFormed = false := by decide
theorem test_wellFormed_refuses_reserved_write : (Access.write 31 0#32).wellFormed = false := by decide
theorem test_wellFormed_refuses_write_only_read : (Access.read 0).wellFormed = false := by decide
theorem test_wellFormed_refuses_read_only_write : (Access.write 4 0#32).wellFormed = false := by decide
theorem test_wellFormed_refuses_dropped_bits : (Access.write 3 0x20000#32).wellFormed = false := by decide
theorem test_wellFormed_accepts : (Access.write 3 0x1FFFF#32).wellFormed = true := by decide

/-! ## Decoding: the words of R92 written out bit by bit, `RSV` zero above `OPC` -/

theorem test_decode_eccdec : decode 0b00000000000000000000000000000001#32 = .ok .eccdec ∧ encode .eccdec = 0b00000000000000000000000000000001#32 := by decide
theorem test_decode_ecccor : decode 0b00000000000000000000000000000010#32 = .ok .ecccor ∧ encode .ecccor = 0b00000000000000000000000000000010#32 := by decide
theorem test_decode_eccfix : decode 0b00000000000000000000000000000011#32 = .ok .eccfix ∧ encode .eccfix = 0b00000000000000000000000000000011#32 := by decide
theorem test_decode_parse : decode 0b00000000000000000000000000010000#32 = .ok .parse ∧ encode .parse = 0b00000000000000000000000000010000#32 := by decide
theorem test_decode_loadsp : decode 0b00000000000000000000000000100000#32 = .ok .loadsp ∧ encode .loadsp = 0b00000000000000000000000000100000#32 := by decide
theorem test_decode_blkclaim : decode 0b00000000000000000000000000100001#32 = .ok .blkclaim ∧ encode .blkclaim = 0b00000000000000000000000000100001#32 := by decide
theorem test_decode_blkscan : decode 0b00000000000000000000000000100010#32 = .ok .blkscan ∧ encode .blkscan = 0b00000000000000000000000000100010#32 := by decide
theorem test_decode_srcscan : decode 0b00000000000000000000000000100011#32 = .ok .srcscan ∧ encode .srcscan = 0b00000000000000000000000000100011#32 := by decide
theorem test_decode_mapinit : decode 0b00000000000000000000000000110000#32 = .ok .mapinit ∧ encode .mapinit = 0b00000000000000000000000000110000#32 := by decide
theorem test_decode_mapget : decode 0b00000000000000000000000000110001#32 = .ok .mapget ∧ encode .mapget = 0b00000000000000000000000000110001#32 := by decide
theorem test_decode_srst : decode 0b00000000000000000000000001111111#32 = .ok .srst ∧ encode .srst = 0b00000000000000000000000001111111#32 := by decide

/-- R96, V-CMD steps 1 to 3. -/
theorem test_decode_refuses :
    decode 0x00000000#32 = .error .unknownOpcode ∧ decode 0x00000101#32 = .error .reservedBits ∧
    decode 0x00000004#32 = .error .unknownOpcode ∧ decode 0x80000001#32 = .error .reservedBits := by decide

theorem test_decodeTableWord_rows :
    [0x01, 0x02, 0x03, 0x10, 0x20, 0x21, 0x22, 0x23, 0x30, 0x31, 0x7F].map (decodeTableWord 32) =
      [some .eccdec, some .ecccor, some .eccfix, some .parse, some .loadsp, some .blkclaim, some .blkscan, some .srcscan,
        some .mapinit, some .mapget, some .srst] := by decide

/-- Every command is what the first step after reset runs when its word stands there. -/
theorem test_fetch_runs (i : Instr) : step (State.reset.withFetchWord 32 (encode i).toNat) = exec i State.reset := by
  cases i <;> rfl

/-! ## The codec -/

/-- R110: the whole table, a row of sixteen entries in each number. -/
theorem test_table_rows :
    (List.range 16).map (fun r => (List.range 16).foldl
      (fun acc c => acc * 256 + (defaultConfig.ecc (BitVec.ofNat 8 (16 * r + c))).toNat) 0) =
    [0x00555603590C0F5A5A0F0C5903565500, 0x653033663C696A3F3F6A693C66333065,
      0x663330653F6A693C3C696A3F65303366, 0x035655005A0F0C59590C0F5A00555603,
      0x693C3F6A30656633336665306A3F3C69, 0x0C595A0F55000356560300550F5A590C,
      0x0F5A590C56030055550003560C595A0F, 0x6A3F3C693366653030656633693C3F6A,
      0x6A3F3C693366653030656633693C3F6A, 0x0F5A590C56030055550003560C595A0F,
      0x0C595A0F55000356560300550F5A590C, 0x693C3F6A30656633336665306A3F3C69,
      0x035655005A0F0C59590C0F5A00555603, 0x663330653F6A693C3C696A3F65303366,
      0x653033663C696A3F3F6A693C66333065, 0x00555603590C0F5A5A0F0C5903565500] := by
  decide +kernel

/-- V-ECC-D: bytes 80 02. -/
theorem test_eccdec : nextWith (exec .eccdec (withOpa 0xABCD0280#32)) (fun t => t.res == 0x00000003#32) = true := by
  decide +kernel

/-- V-ECC-D: the bytes exchanged give another checksum (34 12). -/
theorem test_eccdec_order : nextWith (exec .eccdec (withOpa 0xABCD1234#32)) (fun t => t.res == 0x00000096#32) = true := by
  decide +kernel

/-- V-ECC-C row 8: position 15. -/
theorem test_ecccor : nextWith (exec .ecccor (withOpa 0x00AA3412#32)) (fun t => t.res == 0x00B4123D#32) = true := by
  decide +kernel

/-- V-ECC-C row 15: five bits of syndrome, uncorrectable. -/
theorem test_ecccor_uncorrectable :
    nextWith (exec .ecccor (withOpa 0x00543412#32)) (fun t => t.res == 0x00341202#32) = true := by decide +kernel

/-- V-ECC-F row 2: position 11. -/
theorem test_eccfix : nextWith (exec .eccfix (withOpa 0x00030A80#32)) (fun t => t.res == 0x9902802D#32) = true := by
  decide +kernel

/-- V-ECC-F row 3: a flipped checksum bit is `Ok`. -/
theorem test_eccfix_checksum :
    nextWith (exec .eccfix (withOpa 0x00070280#32)) (fun t => t.res == 0x03028000#32) = true := by decide +kernel

/-! ## The parser -/

/-- V-PAR row 7 in buffer A, standard mode. -/
theorem test_parse :
    nextWith (exec .parse { State.reset with spa := recordOf 0x80#8 0x0A#8 0x03#8 }) (fun t => t.presA == 0x000100B7#32) =
      true := by decide +kernel

/-- V-PAR row 13 in buffer B, alternate mode. -/
theorem test_parse_alternate :
    nextWith (exec .parse { State.reset with spb := recordOf 0x92#8 0x34#8 0x56#8, cfg := 1#1, opa := 1#32 })
      (fun t => t.presB == 0x12340077#32 && t.presA == 0#32) = true := by decide +kernel

/-! ## The builder -/

/-- R161: copy A and copy B of block 0 in their buffers. -/
theorem test_loadsp :
    nextWith (exec .loadsp (oneBlock (recordOf 0x80#8 0x02#8 0x03#8) (recordOf 0x80#8 0x0A#8 0x03#8)))
      (fun t => t.spa == recordOf 0x80#8 0x02#8 0x03#8 && t.spb == recordOf 0x80#8 0x0A#8 0x03#8) = true := by
  decide +kernel

/-- V-CMD step 8: no block in an empty source. -/
theorem test_loadsp_operand : nextWith (exec .loadsp State.reset) (fun t => t.statusWord == 0x040#32) = true := by decide

/-- V-CLM row 6. -/
theorem test_blkclaim :
    nextWith (exec .blkclaim (claimStart (recordOf 0x80#8 0x02#8 0x00#8) (recordOf 0x80#8 0x04#8 0x0C#8)))
      (fun t => t.statusWord == 0x301#32 && t.slotAt 2 == some ⟨2#16, 7#32⟩) = true := by decide +kernel

/-- V-CLM row 14. -/
theorem test_blkclaim_duplicate :
    nextWith (exec .blkclaim (claimStart (recordOf 0x80#8 0x02#8 0x03#8) (recordOf 0x80#8 0x0A#8 0x03#8)))
      (fun t => t.statusWord == 0x60B#32 && t.diag == [⟨.duplicate, 2#16, 7#32, 1#16, 0#16, 9#16, 100#32⟩]) = true := by
  decide +kernel

/-- P2: block with index 1, its copy B corrected. -/
theorem test_blkscan :
    nextWith (exec .blkscan (oneBlock (recordOf 0x80#8 0x02#8 0x03#8) (recordOf 0x80#8 0x0A#8 0x03#8)))
      (fun t => t.presB == 0x000100B7#32 && t.slotAt 1 == some ⟨0#16, 0#32⟩) = true := by decide +kernel

/-- V-CMD step 5: `NOMAP` before `OPERAND`. -/
theorem test_blkscan_nomap : nextWith (exec .blkscan State.reset) (fun t => t.statusWord == 0x030#32) = true := by decide

/-- V-CMD step 13: a source without a block. -/
theorem test_srcscan_empty :
    nextWith (exec .srcscan { State.reset with map := some [], blkidx := 55#32, bres := .claimed })
      (fun t => t.statusWord == 0x001#32 && t.blkidx == 0#32) = true := by decide

/-- Two blocks, indices 1 and 2; the cursor ends past the last. -/
theorem test_srcscan :
    nextWith (exec .srcscan (twoBlocks (recordOf 0x80#8 0x02#8 0x03#8) (recordOf 0x80#8 0x0A#8 0x03#8)
        (recordOf 0x80#8 0x04#8 0x0C#8) (recordOf 0x12#8 0x34#8 0x56#8)))
      (fun t => t.map == some [(1, ⟨0#16, 0#32⟩), (2, ⟨0#16, 1#32⟩)] && t.blkidx == 2#32) = true := by decide +kernel

/-! ## The map, the reset and the registers -/

/-- V-CMD step 10: N above `MAP_MAX`. -/
theorem test_mapinit_operand :
    nextWith (exec .mapinit { State.reset with mapsize := 0x1FFFF#17 }) (fun t => t.statusWord == 0x040#32) = true := by
  decide

/-- R200: every slot unmapped again. -/
theorem test_mapinit :
    nextWith (exec .mapinit (claimStart (recordOf 0#8 0#8 0#8) (recordOf 0#8 0#8 0#8)))
      (fun t => t.slotAt 1 == none && t.nact == 4#17) = true := by decide

/-- R201: a mapped slot in `RES` and `RESH`. -/
theorem test_mapget :
    nextWith (exec .mapget { claimStart (recordOf 0#8 0#8 0#8) (recordOf 0#8 0#8 0#8) with opa := 1#32 })
      (fun t => t.res == 100#32 && t.resh == 0x80000009#32) = true := by decide

/-- V-CMD step 12: no slot in an empty map. -/
theorem test_mapget_operand :
    nextWith (exec .mapget { State.reset with map := some [] }) (fun t => t.statusWord == 0x041#32) = true := by decide

/-- R202: the reset leaves the fatal state, the records stay. -/
theorem test_srst :
    nextWith (exec .srst { State.reset with
        fatal := true, fcause := .io, bres := .fatalIo, map := some []
        diag := [⟨.range, 0#16, 0#32, 9#16, 0#16, 0#16, 0#32⟩] })
      (fun t => t.statusWord == 0#32 && t.diag.length == 1) = true := by decide

/-- V-CMD step 14: a register keeps the bits of its width. -/
theorem test_write_width :
    nextWith (step (withAccess (.write 5 0x00012345#32))) (fun t => regRead t 5 == 0x00002345#32) = true := by decide

/-- V-CMD step 16: `STATUS` is read-only. -/
theorem test_write_read_only :
    nextWith (step (withAccess (.write 1 0xFFFFFFFF#32))) (fun t => regRead t 1 == 0#32) = true := by decide

/-- V-GEO, L = 2^46 - 1. -/
theorem test_geometry :
    let s : State := { State.reset with srclenLo := 0xFFFFFFFF#32, srclenHi := 0x3FFF#14 }
    regRead s 8 = 4164816771#32 ∧ regRead s 10 = 0x3E0F#32 ∧ regRead s 9 = 0x83E0F800#32 := by decide +kernel

/-! ## Witnesses: for each statement with hypotheses, concrete data that meet them all, clause by clause -/

/-- The protected fields the witnesses use: index 1, index 1 with a flipped bit, index 2, index 3, index 9, no marker, erased. -/
def index1 : SpareRecord := recordOf 0x80#8 0x02#8 0x03#8
def index1Flipped : SpareRecord := recordOf 0x80#8 0x0A#8 0x03#8
def index2 : SpareRecord := recordOf 0x80#8 0x04#8 0x0C#8
def index3 : SpareRecord := recordOf 0x80#8 0x06#8 0x9A#8
def index9 : SpareRecord := recordOf 0x80#8 0x12#8 0xA6#8
def noMarker : SpareRecord := recordOf 0x12#8 0x34#8 0x56#8
def erased : SpareRecord := recordOf 0xFF#8 0xFF#8 0xFF#8

/-- A block that a mismatch has halted. -/
def haltedState : State :=
  { claimStart index2 index3 with
    fatal := true, fcause := .mismatch, bres := .fatalMismatch, presA := 0x00020003#32, presB := 0x00030003#32 }

theorem witness_StepRunsDecodedCommand :
    (withAccess (.write 0 0x7F#32)).pending = .write 0 0x7F#32 :: [] ∧ decode 0x7F#32 = .ok .srst ∧
      Instr.wellFormed .srst = true := by decide

theorem witness_HostAccessSteps :
    State.reset.pending = [] ∧ (withAccess (.read 63)).pending = .read 63 :: [] ∧
    (withAccess (.serve 0xFFFF#16 0x3FFFFFFFFFFF#46 (some 0#8))).pending =
      .serve 0xFFFF#16 0x3FFFFFFFFFFF#46 (some 0#8) :: [] := by decide

theorem witness_IllegalWordRefused : ∀ i, 0x80000001#32 ≠ encode i := fun i => by cases i <;> decide

theorem witness_FatalStateRefusesCommands :
    ({ haltedState with pending := [.write 0 1#32] } : State).pending = .write 0 1#32 :: [] ∧ haltedState.fatal = true ∧
      1#32 ≠ 0x0000007F#32 := by decide

theorem witness_FatalStateIsSticky :
    let s : State := { haltedState with pending := [.write 0 1#32] }
    (∃ t, step s = .next t) ∧ s.fatal = true ∧ (∀ rest, s.pending ≠ .reset :: rest) ∧
      ∀ rest, s.pending ≠ .write 0 0x0000007F#32 :: rest :=
  ⟨⟨_, rfl⟩, rfl, fun rest h => by simp at h, fun rest h => by simp at h⟩

theorem witness_NoMapRefused :
    (Instr.blkclaim = .blkclaim ∨ Instr.blkclaim = .blkscan ∨ Instr.blkclaim = .srcscan ∨ Instr.blkclaim = .mapget) ∧
      State.reset.fatal = false ∧ State.reset.mapv = false := by decide

/-- The cursor one past the last block, `MAPSIZE` one above `MAP_MAX`, the index equal to `NACT`. -/
theorem witness_OperandRefused :
    let s : State := { oneBlock index1 index1 with blkidx := 1#32, mapsize := 65537#17, opa := 4#32 }
    s.fatal = false ∧ s.mapv = true ∧ s.sourceLength / 528 / 32 ≤ s.blkidx.toNat ∧
      s.config.mapMax < s.mapsize.toNat ∧ s.nact.toNat ≤ s.opa.toNat := by decide

theorem witness_CommandErrorChangesOnlyCerr :
    (∃ t, exec .mapget State.reset = .next t ∧ t.cerr ≠ .ok) ∧
    (claimStart index2 index3).fatal = false ∧
      ∃ t, exec .blkclaim (claimStart index2 index3) = .next t ∧ t.fatal = true :=
  ⟨⟨_, rfl, by decide⟩, rfl, _, rfl, by decide +kernel⟩

/-- A state in a run, with a mapped slot, a parse in each register and source memory. -/
theorem witness_StepKeepsInv :
    let s : State := { oneBlock index1 index1 with
      pending := [.write 0 0x22#32], map := some [(3, ⟨0#16, 0#32⟩)], presA := 0x000100B7#32, presB := 0x0000000A#32 }
    StateInv s ∧ ∃ t, step s = .next t := by
  refine ⟨⟨by decide +kernel, ?_, ?_, by decide, by decide, by decide, by decide, by decide, by decide, ?_, ?_, by decide⟩,
    _, rfl⟩
  · intro m h; cases h; decide
  · intro m h; cases h; decide
  · constructor <;> decide
  · constructor <;> decide

theorem witness_notFatal : State.reset.fatal = false := rfl

theorem witness_EccDecodeFormula : ∀ x, (eccEntry x).getLsbD 6 = parity8 x := eccEntry_laws.flag

/-- The table of R110 has the named properties, in the function form and in a block's configuration. -/
theorem witness_EccLaws : EccLaws eccEntry ∧ EccLaws State.reset.config.ecc :=
  ⟨eccEntry_laws, by show EccLaws defaultConfig.ecc; rw [defaultConfig_ecc]; exact eccEntry_laws⟩

/-- A syndrome for each of the three clauses: 0, a power of two, `D_15`, and one that is none of them. -/
theorem witness_CorrectOutcomeBySyndrome :
    0x03#8 ^^^ 0x03#8 = 0#8 ∧ 0xDA#8 ^^^ 0x5A#8 = 1#8 <<< (7 : Fin 8).val ∧ 0xAA#8 ^^^ 0x00#8 = dataSyndrome 15 ∧
    0x54#8 ^^^ 0x00#8 ≠ 0#8 ∧ (∀ q : Fin 8, 0x54#8 ^^^ 0x00#8 ≠ 1#8 <<< q.val) ∧
      ∀ p : Fin 16, 0x54#8 ^^^ 0x00#8 ≠ dataSyndrome p := by decide

/-- V-ECC-F row 2 is the codeword 80 02 03 with position 11 flipped. -/
theorem witness_SingleDataFlipCorrected :
    EccLaws eccEntry ∧
      (0x80#8, 0x0A#8, 0x03#8) = flipField ((11 : Fin 16).castLE (by decide)) (codeword eccEntry 0x80#8 0x02#8) :=
  ⟨eccEntry_laws, by decide⟩

/-- V-ECC-F row 3: bit 2 of the checksum. -/
theorem witness_ChecksumFlipToleratedAsOk :
    16 ≤ (18 : Fin 24).val ∧ (0x80#8, 0x02#8, 0x07#8) = flipField 18 (codeword eccEntry 0x80#8 0x02#8) := by decide

/-- V-ECC-F row 13: positions 8 and 11 of the codeword 80 02 03. -/
theorem witness_DoubleErrorDetected :
    EccLaws eccEntry ∧ (8 : Fin 24) ≠ 11 ∧
      (0x80#8, 0x0B#8, 0x03#8) = flipField 8 (flipField 11 (codeword eccEntry 0x80#8 0x02#8)) :=
  ⟨eccEntry_laws, by decide, by decide⟩

theorem witness_EccfixRepairsCodeword :
    let s := withOpa 0x00030A80#32
    EccLaws s.config.ecc ∧ s.fatal = false ∧
      (s.opa.extractLsb' 0 8, s.opa.extractLsb' 8 8, s.opa.extractLsb' 16 8) =
        flipField ((11 : Fin 16).castLE (by decide)) (codeword s.config.ecc 0x80#8 0x02#8) :=
  ⟨witness_EccLaws.2, rfl, by decide +kernel⟩

theorem witness_ParseCommandResult :
    (withOpa 0#32).fatal = false ∧ (withOpa 0#32).opa.getLsbD 0 = false ∧ (withOpa 1#32).opa.getLsbD 0 = true := by decide

theorem witness_ParseBlankIff :
    blankField (fieldOf erased) ∧ blankField (fieldOf (recordOf 0#8 0#8 0#8)) ∧ ¬ blankField (fieldOf noMarker) := by
  unfold blankField; decide

theorem witness_ParseInvalidIff :
    (⟨.invalid, 0#16, .uncorrectable, 0#4⟩ : ParseResult).cls = .invalid ∧
      (⟨.invalid, 0#16, .ok, 0#4⟩ : ParseResult).cls = .invalid := by decide

/-- V-ENC: the largest standard index. -/
theorem witness_StandardIndexRoundTrip :
    0xFFFE#16 = (1#1 ++ (0x3FFF#14 ++ 0#1) : BitVec (1 + (14 + 1))) ∧
    fieldOf (recordOf 0xFF#8 0xFE#8 0x6A#8) =
      codeword eccEntry ((0xFFFE#16 : BitVec 16).extractLsb' 8 8) ((0xFFFE#16 : BitVec 16).extractLsb' 0 8) ∧
    fieldOf (recordOf 0xFF#8 0xFE#8 0x6A#8) ≠ (0xFF#8, 0xFF#8, 0xFF#8) := by decide

/-- V-PAR row 3: the value 0, whose codeword 00 00 FF is not blank. -/
theorem witness_AlternateIndexRoundTrip :
    fieldOf (recordOf 0x00#8 0x00#8 0xFF#8) =
      codeword eccEntry ((0x0000#16 : BitVec 16).extractLsb' 8 8) ((0x0000#16 : BitVec 16).extractLsb' 0 8) ∧
    ¬ blankField (fieldOf (recordOf 0x00#8 0x00#8 0xFF#8)) := by unfold blankField; decide

/-- V-PAR row 10: index 1 with its marker bit, position 7, flipped. -/
theorem witness_ParseRepairsMarker :
    EccLaws eccEntry ∧ 0x8002#16 = (1#1 ++ (1#14 ++ 0#1) : BitVec (1 + (14 + 1))) ∧
    fieldOf (recordOf 0x00#8 0x02#8 0x03#8) = flipField ((7 : Fin 16).castLE (by decide))
      (codeword eccEntry ((0x8002#16 : BitVec 16).extractLsb' 8 8) ((0x8002#16 : BitVec 16).extractLsb' 0 8)) ∧
    ¬ blankField (fieldOf (recordOf 0x00#8 0x02#8 0x03#8)) :=
  ⟨eccEntry_laws, by decide, by decide, by unfold blankField; decide⟩

theorem witness_SpareBytesIgnored :
    fieldOf (index2.set 0 0#8) = fieldOf (claimStart index2 index2).spa ∧
    fieldOf (index2.set 12 0#8) = fieldOf (claimStart index2 index2).spb ∧
      ∃ t, exec .blkclaim (claimStart index2 index2) = .next t :=
  ⟨by decide, by decide, _, rfl⟩

/-- Block 0 of one, the last block that exists. -/
theorem witness_LoadspFillsBuffers :
    let s := oneBlock index1 index2
    s.fatal = false ∧ s.blkidx.toNat < s.sourceLength / 528 / 32 ∧ s.portFaithful ∧
    (∀ k : Fin 16, s.sources.byteAt s.srcid (s.sourceLength / 528 * 512 + s.blkidx.toNat * 512 + k.val) = some index1[k]) ∧
    (∀ k : Fin 16,
      s.sources.byteAt s.srcid (s.sourceLength / 528 * 512 + s.blkidx.toNat * 512 + 0x1F0 + k.val) = some index2[k]) := by
  unfold State.portFaithful; decide +kernel

/-- The host lets copy A fail, or byte 15 of copy A is not there; the host lets copy B fail, or byte 0 of copy B is not
there. -/
theorem witness_LoadspIoFailure :
    let s := oneBlock index1 index2
    let failA : State := { s with portAnswers := [.ioError] }
    let noA : State := { s with sources := s.sources.set 0#16 0x400F#46 none }
    let failB : State := { s with portAnswers := [.serve, .ioError] }
    let noB : State := { s with sources := s.sources.set 0#16 0x41F0#46 none }
    (s.fatal = false ∧ s.blkidx.toNat < numBlocks s.sourceLength) ∧
    (failA.portAnswers.head? ≠ some .silent ∧ failA.portAnswers.head? = some .ioError) ∧
    (noA.portAnswers.head? ≠ some .silent ∧
      15 < 16 ∧ noA.sources.byteAt noA.srcid (offA noA.sourceLength noA.blkidx.toNat + 15) = none) ∧
    (failB.portAnswers.head? = some .serve ∧
      (∀ k, k < 16 → (failB.sources.byteAt failB.srcid (offA failB.sourceLength failB.blkidx.toNat + k)).isSome = true) ∧
      failB.portAnswers.tail.head? ≠ some .silent ∧ failB.portAnswers.tail.head? = some .ioError) ∧
    (noB.portAnswers.head? = none ∧
      (∀ k, k < 16 → (noB.sources.byteAt noB.srcid (offA noB.sourceLength noB.blkidx.toNat + k)).isSome = true) ∧
      noB.portAnswers.tail.head? ≠ some .silent ∧
      0 < 16 ∧ noB.sources.byteAt noB.srcid (offB noB.sourceLength noB.blkidx.toNat + 0) = none) := by
  decide +kernel

theorem witness_SilentPortStops :
    let s : State := { oneBlock index1 index2 with portAnswers := [.silent] }
    s.fatal = false ∧ s.blkidx.toNat < numBlocks s.sourceLength ∧ s.portAnswers.head? = some .silent ∧ s.mapv = true := by
  decide

/-- An erased copy A beside an index, and two copies without a marker. -/
theorem witness_BlkclaimSkips :
    let s := claimStart erased index2
    let s' := claimStart noMarker noMarker
    s.fatal = false ∧ s.mapv = true ∧ (parse s.config.ecc s.spa s.cfg).cls = .blank ∧ s'.fatal = false ∧ s'.mapv = true ∧
      (parse s'.config.ecc s'.spa s'.cfg).cls = .invalid ∧ (parse s'.config.ecc s'.spb s'.cfg).cls = .invalid := by
  decide +kernel

/-- V-CLM row 10. -/
theorem witness_BlkclaimMismatch :
    let s := claimStart index2 index3
    s.fatal = false ∧ s.mapv = true ∧ (parse s.config.ecc s.spa s.cfg).cls = .index ∧
      (parse s.config.ecc s.spb s.cfg).cls = .index ∧
      (parse s.config.ecc s.spa s.cfg).idx ≠ (parse s.config.ecc s.spb s.cfg).idx := by decide +kernel

/-- `NACT` itself is the first index out of range. -/
theorem witness_BlkclaimDropsOutOfRange :
    let s : State := { claimStart index9 index9 with nact := 9#17 }
    s.fatal = false ∧ s.mapv = true ∧
      resolvesTo (parse s.config.ecc s.spa s.cfg) (parse s.config.ecc s.spb s.cfg) 9#16 ∧
      s.nact.toNat ≤ (9#16 : BitVec 16).toNat := by
  unfold resolvesTo; decide +kernel

/-- V-CLM row 15: copy A invalid, slot 1 taken. -/
theorem witness_BlkclaimDuplicate :
    let s := claimStart noMarker index1
    s.fatal = false ∧ s.map = some [(1, ⟨9#16, 100#32⟩)] ∧
      resolvesTo (parse s.config.ecc s.spa s.cfg) (parse s.config.ecc s.spb s.cfg) 1#16 ∧
      (1#16 : BitVec 16).toNat < s.nact.toNat ∧ Sparse.get [(1, (⟨9#16, 100#32⟩ : Slot))] 1 = some ⟨9#16, 100#32⟩ := by
  unfold resolvesTo; decide +kernel

/-- V-CLM row 8: copy B invalid, slot 3, the last of the map. -/
theorem witness_BlkclaimClaims :
    let s := claimStart index3 noMarker
    s.fatal = false ∧ s.map = some [(1, ⟨9#16, 100#32⟩)] ∧
      resolvesTo (parse s.config.ecc s.spa s.cfg) (parse s.config.ecc s.spb s.cfg) 3#16 ∧
      (3#16 : BitVec 16).toNat < s.nact.toNat ∧ Sparse.get [(1, (⟨9#16, 100#32⟩ : Slot))] 3 = none := by
  unfold resolvesTo; decide +kernel

theorem witness_BlkscanClaimsBlock :
    let s := oneBlock index1 index1Flipped
    s.fatal = false ∧ s.mapv = true ∧ s.blkidx.toNat < numBlocks s.sourceLength ∧ s.portFaithful ∧
    s.sources.record s.srcid (offA s.sourceLength s.blkidx.toNat) = some index1 ∧
    s.sources.record s.srcid (offB s.sourceLength s.blkidx.toNat) = some index1Flipped ∧
    resolvesTo (parse s.config.ecc index1 s.cfg) (parse s.config.ecc index1Flipped s.cfg) 1#16 ∧
    (1#16 : BitVec 16).toNat < s.nact.toNat ∧ s.slotAt (1#16 : BitVec 16).toNat = none := by
  unfold State.portFaithful resolvesTo; decide +kernel

/-- `LOADSP` returns with and without the fatal condition. -/
theorem witness_BlkscanIsLoadThenClaim :
    let s := oneBlock index1 index2
    let s' : State := { s with portAnswers := [.ioError] }
    (s.fatal = false ∧ s.mapv = true ∧ s.blkidx.toNat < numBlocks s.sourceLength) ∧
      nextWith (exec .loadsp s) (fun u => u.fatal == false) = true ∧
      nextWith (exec .loadsp s') (fun u => u.fatal == true) = true := by decide +kernel

theorem witness_SrcscanIsIteratedBlkscan :
    (twoBlocks index1 index1 index2 index2).fatal = false ∧ (twoBlocks index1 index1 index2 index2).mapv = true := by decide

theorem twoBlocks_verdicts :
    let s := twoBlocks index1 index1Flipped index2 noMarker
    numBlocks s.sourceLength = 2 ∧ s.blockVerdict 0 = some (.goOn 1#16) ∧ s.blockVerdict 1 = some (.goOn 2#16) := by
  decide +kernel

theorem witness_SrcscanBuildsMap :
    let s := twoBlocks index1 index1Flipped index2 noMarker
    s.fatal = false ∧ s.mapv = true ∧ s.portFaithful ∧
    (∀ i, i < numBlocks s.sourceLength → ∃ r, s.blockVerdict i = some r ∧ ∀ x y, r ≠ .mismatch x y) ∧
    (∀ i idx, i < numBlocks s.sourceLength → s.blockVerdict i = some (.goOn idx) → idx.toNat < s.nact.toNat →
      s.slotAt idx.toNat = none) ∧
    (∀ i j idx, i < j → j < numBlocks s.sourceLength → s.blockVerdict i = some (.goOn idx) →
      s.blockVerdict j = some (.goOn idx) → s.nact.toNat ≤ idx.toNat) := by
  intro s
  obtain ⟨hn, h0, h1⟩ : numBlocks s.sourceLength = 2 ∧ s.blockVerdict 0 = some (.goOn 1#16) ∧
    s.blockVerdict 1 = some (.goOn 2#16) := twoBlocks_verdicts
  refine ⟨rfl, rfl, (fun a h => by cases h), ?_, fun _ _ _ _ _ => rfl, ?_⟩
  · intro i hi
    rw [hn] at hi
    obtain rfl | rfl : i = 0 ∨ i = 1 := by omega
    · exact ⟨_, h0, fun _ _ => by simp⟩
    · exact ⟨_, h1, fun _ _ => by simp⟩
  · intro i j idx hij hj hi e
    rw [hn] at hj
    obtain ⟨rfl, rfl⟩ : i = 0 ∧ j = 1 := by omega
    rw [h0] at hi; rw [h1] at e
    simp only [Option.some.injEq, Resolution.goOn.injEq] at hi e
    exact absurd (hi.trans e.symm) (by decide)

/-- A scan that completes and one that a mismatch in block 1 ends. -/
theorem witness_SrcscanEndsPrecisely :
    let s := twoBlocks index1 index1 index2 index2
    let s' := twoBlocks index1 index1 index2 index3
    (s.fatal = false ∧ s.mapv = true ∧ s'.fatal = false ∧ s'.mapv = true) ∧
      nextWith (exec .srcscan s) (fun t => t.fatal == false) = true ∧
      nextWith (exec .srcscan s') (fun t => t.fatal == true && t.blkidx == 1#32) = true := by decide +kernel

/-- A command that claims slot 2 while slot 1 is mapped. -/
theorem witness_SlotsArePermanent :
    (∃ t, exec .blkclaim (claimStart index2 index2) = .next t) ∧ Instr.blkclaim ≠ .mapinit ∧ Instr.blkclaim ≠ .srst ∧
    (claimStart index2 index2).slotAt 1 = some ⟨9#16, 100#32⟩ ∧ (claimStart index2 index2).slotAt 2 = none ∧
      nextWith (exec .blkclaim (claimStart index2 index2)) (fun t => t.slotAt 2 == some ⟨2#16, 7#32⟩) = true :=
  ⟨⟨_, rfl⟩, by decide, by decide, by decide, by decide, by decide +kernel⟩

/-- `PARSE` meets the premises of every clause but those about the parse registers and `PARSE` itself, and `MAPGET` those. -/
theorem witness_EngineWritesOnlyItsRegisters :
    nextWith (exec .parse State.reset) (fun _ => true) = true ∧
      nextWith (exec .mapget (claimStart index1 index1)) (fun _ => true) = true ∧
      Instr.parse ≠ .srst ∧ Instr.mapget ≠ .srst := by decide +kernel

theorem witness_CommandReturns : (∃ t, exec .srcscan { State.reset with map := some [] } = .next t) ∧
    (∃ t, exec .blkclaim (claimStart index9 index9) = .next t ∧ t.diag ≠ []) :=
  ⟨⟨_, rfl⟩, _, rfl, by decide +kernel⟩

/-- `MAPSIZE` equal to `MAP_MAX` is the last legal value. -/
theorem witness_MapinitEmptiesMap :
    let s : State := { State.reset with mapsize := 65536#17 }
    let s' : State := { State.reset with mapsize := 65537#17 }
    haltedState.fatal = true ∧ (s'.fatal = false ∧ s'.config.mapMax < s'.mapsize.toNat) ∧
      (s.fatal = false ∧ s.mapsize.toNat ≤ s.config.mapMax) := by decide

/-- The index equal to `NACT`; the mapped slot 1; the last slot, unmapped. -/
theorem witness_MapgetReadsSlot :
    let s : Word → State := fun v => { claimStart index1 index1 with opa := v }
    haltedState.fatal = true ∧ State.reset.map = none ∧ (s 4#32).map = some [(1, ⟨9#16, 100#32⟩)] ∧
      (s 4#32).nact.toNat ≤ (s 4#32).opa.toNat ∧
      ((s 1#32).opa.toNat < (s 1#32).nact.toNat ∧
        Sparse.get [(1, (⟨9#16, 100#32⟩ : Slot))] (s 1#32).opa.toNat = some ⟨9#16, 100#32⟩) ∧
      ((s 3#32).opa.toNat < (s 3#32).nact.toNat ∧
        Sparse.get [(1, (⟨9#16, 100#32⟩ : Slot))] (s 3#32).opa.toNat = none) := by decide

/-- A write to `SRCLEN_HI`, whose reads of the geometry registers are excepted, and another register. -/
theorem witness_RegisterWriteThenRead :
    (withAccess (.write 7 0xFFFFFFFF#32)).pending = .write Reg.srclenHi.number 0xFFFFFFFF#32 :: [] ∧
      Reg.readWrite .srclenHi = true ∧ Reg.spareorgLo ≠ .srclenHi ∧
      (withAccess (.write 63 0x1FF#32)).pending = .write (Reg.spb 15).number 0x1FF#32 :: [] ∧
      Reg.readWrite (.spb 15) = true := by decide

theorem witness_IgnoredWritesAndZeroReads :
    (withAccess (.write 31 1#32)).pending = .write 31 1#32 :: [] ∧ (13 ≤ (31 : Fin 64).val ∧ (31 : Fin 64).val ≤ 31) ∧
      (0 : Fin 64).val = 0 ∧ (17 ≤ (17 : Fin 64).val ∧ (17 : Fin 64).val ≤ 31) := by decide

/-- The first and the last byte register. -/
theorem witness_ReadsShowRegisters :
    (32 : Fin 64).val = 32 + (0 : Fin 16).val ∧ (63 : Fin 64).val = 48 + (15 : Fin 16).val := by decide

theorem witness_GeometryRegisters :
    let s : State := { State.reset with srclenLo := 0xFFFFFFFF#32, srclenHi := 0x3FFF#14 }
    70368744177663 = (regRead s 7).toNat * 2 ^ 32 + (regRead s 6).toNat := by decide

/-- The longest source and its last block. -/
theorem witness_SpareReadsInsideSource :
    70368744177663 < 2 ^ 46 ∧ 4164816770 < numBlocks 70368744177663 := by decide

theorem witness_CommandsReturnWhenPortAnswers :
    ({ State.reset with portAnswers := [.serve, .ioError] } : State).portAnswersAll := by
  unfold State.portAnswersAll; decide

end Sys2Proof.Tests
end

/-! The proofs of the statements on the scope of the model (00_scope.md): what a step of the machine is. -/

namespace Sys2Proof.Machine

/-- A step takes the first access off the list and performs it (R8). -/
theorem step_eq_perform {s : State} {a : Access} {rest : List Access} (h : s.pending = a :: rest) :
    step s = perform a (s.setPending rest) := by
  simp only [step, hostStep, h]

/-- No register shows the accesses to come. -/
@[simp] theorem readReg_setPending (s : State) (rest : List Access) (reg : Reg) :
    readReg (s.setPending rest) reg = readReg s reg := by
  cases reg <;> rfl

/-- What a read returns does not depend on the accesses after it. -/
@[simp] theorem regRead_setPending (s : State) (rest : List Access) (r : Fin 64) :
    regRead (s.setPending rest) r = regRead s r := by
  cases hr : regOfNumber r <;> simp [regRead, hr]

/-- Settles O4: one clause per kind of step, each from the lemma that says what that step is; a changed source is read by
`Memory.byteAt_set`. -/
theorem hostAccessSteps : Obligations.HostAccessSteps := by
  intro s rest
  refine ⟨step_idle, fun a h => step_eq_perform h, fun r h => ?read, fun src off byte h => ?serve⟩
  case read => rw [step_read h, regRead_setPending]; rfl
  case serve => exact ⟨_, step_serve h, rfl, fun src' off' => s.sources.byteAt_set src src' off off' byte⟩

end Sys2Proof.Machine

/-! The proofs of the statements on the state (10_state.md). First what each command can write, the column 'engine writes' of
R24 as one predicate and one theorem about `exec`. -/

namespace Sys2Proof.Machine

/-- A command may turn `s` into `t`: only the fields that R24 lets it write can differ. -/
def Footprint (i : Instr) (s t : State) : Prop :=
  match i with
  | .eccdec | .ecccor | .eccfix | .mapget => t = { s with cerr := t.cerr, res := t.res, resh := t.resh }
  | .parse => t = { s with cerr := t.cerr, presA := t.presA, presB := t.presB }
  | .loadsp =>
    t = { s with
      cerr := t.cerr, spa := t.spa, spb := t.spb, fatal := t.fatal, fcause := t.fcause, bres := t.bres
      portLog := t.portLog, portAnswers := t.portAnswers }
  | .blkclaim =>
    t = { s with
      cerr := t.cerr, presA := t.presA, presB := t.presB, fatal := t.fatal, fcause := t.fcause, bres := t.bres
      map := t.map, diag := t.diag }
  | .blkscan =>
    t = { s with
      cerr := t.cerr, spa := t.spa, spb := t.spb, fatal := t.fatal, fcause := t.fcause, bres := t.bres
      portLog := t.portLog, portAnswers := t.portAnswers, presA := t.presA, presB := t.presB
      map := t.map, diag := t.diag }
  | .srcscan =>
    t = { s with
      cerr := t.cerr, spa := t.spa, spb := t.spb, fatal := t.fatal, fcause := t.fcause, bres := t.bres
      portLog := t.portLog, portAnswers := t.portAnswers, presA := t.presA, presB := t.presB
      map := t.map, diag := t.diag, blkidx := t.blkidx }
  | .mapinit => t = { s with cerr := t.cerr, nact := t.nact, map := t.map, bres := t.bres }
  | .srst => t = s.resetBlock

section Footprints

variable {s t u : State} {i : Instr}

/-- `loadsp` writes what `LOADSP` may. -/
theorem loadsp_footprint (h : loadsp s = .next t) : Footprint .loadsp s t := by
  rcases loadsp_next h with rfl | rfl | ⟨ra, rb, rfl⟩ <;> rfl

/-- `claim` writes what `BLKCLAIM` may. -/
theorem claim_footprint (v : BitVec 1) (s : State) : Footprint .blkclaim s (claim v s) := by
  rcases claim_cases v s with ⟨-, e⟩ | ⟨-, e⟩ | ⟨x, y, -, -, e⟩ | ⟨idx, -, e⟩ <;> rw [e]
  · rfl
  · rfl
  · rfl
  · rcases claimIndex_cases idx (s.withParses v) with ⟨-, e⟩ | ⟨-, p, -, e⟩ | ⟨-, -, e⟩ <;> rw [e] <;> rfl

/-- `BLKSCAN` may write what `LOADSP` may. -/
theorem Footprint.blkscan_of_loadsp (h : Footprint .loadsp s t) : Footprint .blkscan s t := by
  unfold Footprint at h ⊢; rw [h]

/-- `BLKSCAN` may write what `LOADSP` and then `BLKCLAIM` may. -/
theorem Footprint.blkscan_of_loadsp_blkclaim (h : Footprint .loadsp s t) (h' : Footprint .blkclaim t u) :
    Footprint .blkscan s u := by
  unfold Footprint at h h' ⊢; rw [h', h]

/-- `SRCSCAN` may write what its turns may. -/
theorem Footprint.srcscan_loadsp (h : Footprint .srcscan s t) (h' : Footprint .loadsp t u) : Footprint .srcscan s u := by
  unfold Footprint at h h' ⊢; rw [h', h]

theorem Footprint.srcscan_blkclaim (h : Footprint .srcscan s t) (h' : Footprint .blkclaim t u) :
    Footprint .srcscan s u := by
  unfold Footprint at h h' ⊢; rw [h', h]

/-- Every command may write `CERR`: what may change after it was set may change from before. -/
theorem Footprint.of_setCerr {c : CErr} (hi : i ≠ .srst) (h : Footprint i (s.setCerr c) t) : Footprint i s t := by
  cases i with
  | srst => exact absurd rfl hi
  | _ => exact h

theorem footprint_setCerr (hi : i ≠ .srst) (s : State) (c : CErr) : Footprint i s (s.setCerr c) := by
  cases i with
  | srst => exact absurd rfl hi
  | _ => rfl

/-- What every value of `CERR` allows and the body keeps holds of the next state of a command. -/
theorem accept_keeps {P : State → Prop} {needsMap refused : Bool} {body : State → Out} (hc : ∀ c, P (s.setCerr c))
    (hbody : body (s.setCerr .ok) = .next t → P t) (h : accept needsMap refused s body = .next t) : P t := by
  rcases accept_next h with ⟨c, -, rfl⟩ | ⟨-, -, -, h⟩
  · exact hc c
  · exact hbody h

/-- A command writes what its body may. -/
theorem accept_footprint {needsMap refused : Bool} {body : State → Out} (h : accept needsMap refused s body = .next t)
    (hi : i ≠ .srst) (hbody : ∀ u, body u = .next t → Footprint i u t) : Footprint i s t :=
  accept_keeps (footprint_setCerr hi s) (fun e => .of_setCerr hi (hbody _ e)) h

end Footprints

/-- A property of states that every piece of the map builder keeps. -/
structure BuilderKeeps (P : State → Prop) : Prop where
  setCerr : ∀ s c, P s → P (s.setCerr c)
  setVerdict : ∀ s v, P s → P (s.setVerdict v)
  setCursor : ∀ s i, P s → P (s.setCursor i)
  loadsp : ∀ s t, P s → loadsp s = .next t → P t
  claim : ∀ s v, P s → P (claim v s)

/-- What the pieces of the map builder keep, the three claiming commands keep (R164, R165, R168). -/
theorem BuilderKeeps.exec_claiming {P : State → Prop} (hP : BuilderKeeps P) {i : Instr} {s t : State}
    (hi : i = .blkclaim ∨ i = .blkscan ∨ i = .srcscan) (hs : P s) (h : exec i s = .next t) : P t := by
  have hc := fun c => hP.setCerr s c hs
  rcases hi with rfl | rfl | rfl
  case inl =>
    rw [exec_blkclaim] at h
    exact accept_keeps hc (fun e => by cases e; exact hP.claim _ _ (hc .ok)) h
  case inr.inl =>
    rw [exec_blkscan] at h
    refine accept_keeps hc (fun e => ?_) h
    rcases andThen_next e with ⟨hl, -⟩ | ⟨s1, hl, -, hcl⟩
    · exact hP.loadsp _ _ (hc .ok) hl
    · cases hcl; exact hP.claim _ _ (hP.loadsp _ _ (hc .ok) hl)
  case inr.inr =>
    rw [exec_srcscan] at h
    refine accept_keeps hc (fun e => ?_) h
    exact scanBlocks_keeps hP.loadsp (fun s hs _ => hP.claim s _ hs) hP.setCursor _ _ _
      (hP.setVerdict _ _ (hP.setCursor _ _ (hc .ok))) e

/-- A scan stays within what `SRCSCAN` may write. -/
theorem footprint_srcscan_keeps (s : State) : BuilderKeeps (Footprint .srcscan s) where
  setCerr t c h := by unfold Footprint at h ⊢; rw [h]; rfl
  setVerdict t v h := by unfold Footprint at h ⊢; rw [h]; rfl
  setCursor t i h := by unfold Footprint at h ⊢; rw [h]; rfl
  loadsp _ _ h e := h.srcscan_loadsp (loadsp_footprint e)
  claim t v h := h.srcscan_blkclaim (claim_footprint v t)

/-- Every command writes only what R24 lets it write. -/
theorem exec_footprint {i : Instr} {s t : State} (h : exec i s = .next t) : Footprint i s t := by
  cases i with
  | eccdec | ecccor | eccfix | mapinit =>
    simp only [exec_eccdec, exec_ecccor, exec_eccfix, exec_mapinit] at h
    exact accept_footprint h (by decide) fun u e => by cases e; rfl
  | parse =>
    rw [exec_parse] at h
    refine accept_footprint h (by decide) fun u e => ?_
    split at e <;> cases e <;> rfl
  | mapget =>
    rw [exec_mapget] at h
    refine accept_footprint h (by decide) fun u e => ?_
    split at e <;> cases e <;> rfl
  | loadsp =>
    rw [exec_loadsp] at h
    exact accept_footprint h (by decide) fun u => loadsp_footprint
  | blkclaim =>
    rw [exec_blkclaim] at h
    exact accept_footprint h (by decide) fun u e => by cases e; exact claim_footprint _ u
  | blkscan =>
    rw [exec_blkscan] at h
    refine accept_footprint h (by decide) fun u e => ?_
    rcases andThen_next e with ⟨hl, -⟩ | ⟨u1, hl, -, hcl⟩
    · exact (loadsp_footprint hl).blkscan_of_loadsp
    · cases hcl; exact (loadsp_footprint hl).blkscan_of_loadsp_blkclaim (claim_footprint _ u1)
  | srcscan =>
    have hs : Footprint .srcscan s s := rfl
    exact (footprint_srcscan_keeps s).exec_claiming (by decide) hs h
  | srst => cases h; rfl

/-- Settles O48: the fields that a command's footprint does not name are the old ones. -/
theorem engineWritesOnlyItsRegisters : Obligations.EngineWritesOnlyItsRegisters := by
  intro i s t h hi
  have ht := exec_footprint h
  cases i with
  | srst => exact absurd rfl hi
  | _ => unfold Footprint at ht; rw [ht]; simp

end Sys2Proof.Machine

/-! The map within a run (R9, R41). -/

namespace Sys2Proof.Machine

/-- The map of `t` is that of `s` with slots claimed for the current source: no mapped slot changed (R41). -/
structure ClaimsOnly (s t : State) : Prop where
  source : t.srcid = s.srcid
  mapped : ∀ k p, s.slotAt k = some p → t.slotAt k = some p
  unmapped : ∀ k p, s.slotAt k = none → t.slotAt k = some p → p.src = s.srcid

section ClaimsOnly

variable {s t u : State}

/-- A state with the same map shows the same slots (R40). -/
theorem slotAt_of_map_eq (h : t.map = s.map) (k : Nat) : t.slotAt k = s.slotAt k := by
  simp only [State.slotAt, h]

theorem ClaimsOnly.of_map_eq (hs : t.srcid = s.srcid) (hm : t.map = s.map) : ClaimsOnly s t where
  source := hs
  mapped k p h := by rwa [slotAt_of_map_eq hm]
  unmapped k p h h' := by rw [slotAt_of_map_eq hm, h] at h'; cases h'

theorem ClaimsOnly.trans (h : ClaimsOnly s t) (h' : ClaimsOnly t u) : ClaimsOnly s u where
  source := h'.source.trans h.source
  mapped k p hk := h'.mapped k p (h.mapped k p hk)
  unmapped k p hk hp := by
    cases ht : t.slotAt k with
    | none => exact (h'.unmapped k p ht hp).trans h.source
    | some q =>
      have hq := h'.mapped k q ht
      rw [hp] at hq; cases hq
      exact h.unmapped k p hk ht

/-- Without a map there is nothing to write a slot in. -/
theorem setSlot_map_eq_of_mapv (h : s.mapv = false) (i : Nat) (p : Slot) : (s.setSlot i p).map = s.map := by
  have hm : s.map = none := by simpa [State.mapv] using h
  simp [hm]

/-- A free slot given to the current source is a claim. -/
theorem ClaimsOnly.setSlot {i : Nat} {p : Slot} (hfree : s.slotAt i = none) (hp : p.src = s.srcid) :
    ClaimsOnly s (s.setSlot i p) := by
  cases hm : s.mapv with
  | false => exact .of_map_eq rfl (setSlot_map_eq_of_mapv hm i p)
  | true =>
    refine ⟨rfl, fun k q hk => ?_, fun k q hk hq => ?_⟩
    · have hne : k ≠ i := by rintro rfl; rw [hfree] at hk; cases hk
      rw [slotAt_setSlot hm, if_neg hne, hk]
    · rw [slotAt_setSlot hm] at hq
      split at hq
      · cases hq; exact hp
      · rw [hk] at hq; cases hq

/-- Whatever `claim` does, it claims at most, and for the current source (R163). -/
theorem claim_claimsOnly (v : BitVec 1) (s : State) : ClaimsOnly s (claim v s) := by
  rcases claim_cases v s with ⟨-, e⟩ | ⟨-, e⟩ | ⟨x, y, -, -, e⟩ | ⟨idx, -, e⟩ <;> rw [e]
  · exact .of_map_eq rfl rfl
  · exact .of_map_eq rfl rfl
  · exact .of_map_eq rfl rfl
  · have hparses : ClaimsOnly s (s.withParses v) := .of_map_eq rfl rfl
    refine hparses.trans ?_
    rcases claimIndex_cases idx (s.withParses v) with ⟨-, e⟩ | ⟨-, p, -, e⟩ | ⟨-, hfree, e⟩ <;> rw [e]
    · exact .of_map_eq rfl rfl
    · exact .of_map_eq rfl rfl
    · exact (ClaimsOnly.setSlot hfree rfl).trans (.of_map_eq rfl rfl)

theorem loadsp_claimsOnly (h : loadsp s = .next t) : ClaimsOnly s t := by
  have ht := loadsp_footprint h
  unfold Footprint at ht
  rw [ht]
  exact .of_map_eq rfl rfl

/-- The pieces of the map builder only claim. -/
theorem claimsOnly_keeps (s : State) : BuilderKeeps (ClaimsOnly s) where
  setCerr _ _ h := h.trans (.of_map_eq rfl rfl)
  setVerdict _ _ h := h.trans (.of_map_eq rfl rfl)
  setCursor _ _ h := h.trans (.of_map_eq rfl rfl)
  loadsp _ _ h e := h.trans (loadsp_claimsOnly e)
  claim t v h := h.trans (claim_claimsOnly v t)

end ClaimsOnly

/-- A command that does not claim and does not start a run anew leaves the map alone (R24, R41). -/
theorem exec_map_eq {i : Instr} {s t : State} (h : exec i s = .next t) (hi : i ≠ .mapinit) (hr : i ≠ .srst)
    (hc : ¬ (i = .blkclaim ∨ i = .blkscan ∨ i = .srcscan)) : t.srcid = s.srcid ∧ t.map = s.map := by
  have ht := exec_footprint h
  cases i with
  | mapinit => exact absurd rfl hi
  | srst => exact absurd rfl hr
  | blkclaim | blkscan | srcscan => simp at hc
  | _ => unfold Footprint at ht; rw [ht]; exact ⟨rfl, rfl⟩

/-- Settles O47: the claiming commands only claim, an invariant of the loop of `SRCSCAN`; the others have no map to write. -/
theorem slotsArePermanent : Obligations.SlotsArePermanent := by
  intro i s t h hi hr
  have hmap := exec_map_eq h hi hr
  have hclaims : ClaimsOnly s t := by
    by_cases hc : i = .blkclaim ∨ i = .blkscan ∨ i = .srcscan
    · exact (claimsOnly_keeps s).exec_claiming hc (.of_map_eq rfl rfl) h
    · obtain ⟨hsrc, hm⟩ := hmap hc
      exact .of_map_eq hsrc hm
  refine ⟨hclaims.mapped, hclaims.unmapped, fun h1 h2 h3 => ?_⟩
  exact (hmap (by simp [h1, h2, h3])).2

end Sys2Proof.Machine

/-! The diagnostic stream (R44). -/

namespace Sys2Proof.Machine

/-- Between `s` and `t` the records `d`, all about the current source, were appended to the stream (R44). -/
structure Emits (s t : State) (d : List DiagRecord) : Prop where
  source : t.srcid = s.srcid
  appended : t.diag = s.diag ++ d
  about : ∀ r ∈ d, r.src = s.srcid

section Emits

variable {s t u : State} {d e : List DiagRecord}

theorem Emits.of_diag_eq (hs : t.srcid = s.srcid) (hd : t.diag = s.diag) : Emits s t [] :=
  ⟨hs, by rw [hd, List.append_nil], by simp⟩

theorem Emits.trans (h : Emits s t d) (h' : Emits t u e) : Emits s u (d ++ e) where
  source := h'.source.trans h.source
  appended := by rw [h'.appended, h.appended, List.append_assoc]
  about r hr := by
    rcases List.mem_append.mp hr with hr | hr
    · exact h.about r hr
    · exact (h'.about r hr).trans h.source

theorem Emits.single {r : DiagRecord} (hs : t.srcid = s.srcid) (hd : t.diag = s.diag ++ [r]) (hr : r.src = s.srcid) :
    Emits s t [r] :=
  ⟨hs, hd, by simpa using hr⟩

/-- At most one record was appended to the stream. -/
def EmitsAtMostOne (s t : State) : Prop := ∃ d, Emits s t d ∧ d.length ≤ 1

/-- A claim emits at most one record (R163). -/
theorem claim_emits (v : BitVec 1) (s : State) : EmitsAtMostOne s (claim v s) := by
  rcases claim_cases v s with ⟨-, e⟩ | ⟨-, e⟩ | ⟨x, y, -, -, e⟩ | ⟨idx, -, e⟩ <;> rw [e]
  · exact ⟨_, .of_diag_eq rfl rfl, by simp⟩
  · exact ⟨_, .of_diag_eq rfl rfl, by simp⟩
  · exact ⟨_, .single rfl rfl rfl, by simp⟩
  · rcases claimIndex_cases idx (s.withParses v) with ⟨-, e⟩ | ⟨-, p, -, e⟩ | ⟨-, -, e⟩ <;> rw [e]
    · exact ⟨_, .single rfl rfl rfl, by simp⟩
    · exact ⟨_, .single rfl rfl rfl, by simp⟩
    · exact ⟨_, .of_diag_eq rfl rfl, by simp⟩

/-- Loading the records of a block emits nothing (R161). -/
theorem loadsp_emits (h : loadsp s = .next t) : Emits s t [] := by
  have ht := loadsp_footprint h
  unfold Footprint at ht
  rw [ht]
  exact .of_diag_eq rfl rfl

/-- The pieces of the map builder append to the stream. -/
theorem emits_keeps (s : State) : BuilderKeeps fun t => ∃ d, Emits s t d where
  setCerr _ _ h := h.imp' (· ++ []) fun _ hd => hd.trans (.of_diag_eq rfl rfl)
  setVerdict _ _ h := h.imp' (· ++ []) fun _ hd => hd.trans (.of_diag_eq rfl rfl)
  setCursor _ _ h := h.imp' (· ++ []) fun _ hd => hd.trans (.of_diag_eq rfl rfl)
  loadsp _ _ h e := h.imp' (· ++ []) fun _ hd => hd.trans (loadsp_emits e)
  claim t v h := by
    obtain ⟨d, hd⟩ := h
    obtain ⟨e, he, -⟩ := claim_emits v t
    exact ⟨d ++ e, hd.trans he⟩

/-- `CERR` is not part of the stream. -/
theorem Emits.of_setCerr {c : CErr} (h : Emits (s.setCerr c) t d) : Emits s t d := ⟨h.source, h.appended, h.about⟩

/-- `BLKCLAIM` emits at most one record (R163, R164). -/
theorem exec_blkclaim_emits (h : exec .blkclaim s = .next t) : EmitsAtMostOne s t := by
  rw [exec_blkclaim] at h
  refine accept_keeps (fun c => ⟨[], .of_diag_eq rfl rfl, by simp⟩) (fun e => ?_) h
  cases e
  obtain ⟨d, hd, hlen⟩ := claim_emits (s.setCerr .ok).cfg (s.setCerr .ok)
  exact ⟨d, hd.of_setCerr, hlen⟩

/-- `BLKSCAN` emits at most one record: its claim's (R163, R165). -/
theorem exec_blkscan_emits (h : exec .blkscan s = .next t) : EmitsAtMostOne s t := by
  rw [exec_blkscan] at h
  refine accept_keeps (fun c => ⟨[], .of_diag_eq rfl rfl, by simp⟩) (fun e => ?_) h
  rcases andThen_next e with ⟨hl, -⟩ | ⟨s1, hl, -, hcl⟩
  · exact ⟨[], (loadsp_emits hl).of_setCerr, by simp⟩
  · cases hcl
    obtain ⟨d, hd, hlen⟩ := claim_emits (s.setCerr .ok).cfg s1
    exact ⟨d, ((loadsp_emits hl).trans hd).of_setCerr, hlen⟩

/-- A command that does not claim emits nothing, the reset included (R44, R202). -/
theorem exec_diag_eq {i : Instr} (h : exec i s = .next t) (hc : ¬ (i = .blkclaim ∨ i = .blkscan ∨ i = .srcscan)) :
    t.diag = s.diag := by
  have ht := exec_footprint h
  cases i with
  | blkclaim | blkscan | srcscan => simp at hc
  | srst => cases h; rfl
  | _ => unfold Footprint at ht; rw [ht]

end Emits

/-- Settles O50: one record at most for each claim, none for a command that does not claim. -/
theorem diagnosticsAppended : Obligations.DiagnosticsAppended := by
  intro i s t h
  by_cases hc : i = .blkclaim ∨ i = .blkscan ∨ i = .srcscan
  · rcases hc with rfl | rfl | rfl
    · obtain ⟨d, hd, hlen⟩ := exec_blkclaim_emits h
      exact ⟨d, hd.appended, hd.about, fun _ => hlen, fun hne => absurd rfl hne⟩
    · obtain ⟨d, hd, hlen⟩ := exec_blkscan_emits h
      exact ⟨d, hd.appended, hd.about, fun _ => hlen, fun _ hne => absurd rfl hne⟩
    · obtain ⟨d, hd⟩ := (emits_keeps s).exec_claiming (by decide) ⟨[], .of_diag_eq rfl rfl⟩ h
      exact ⟨d, hd.appended, hd.about, fun hne => absurd rfl hne, fun _ _ hne => absurd rfl hne⟩
  · exact ⟨[], by simp [exec_diag_eq h hc], by simp, by simp, fun _ _ _ => rfl⟩

end Sys2Proof.Machine

/-! What takes no part in a command: an update that neither the tests nor the work of a command sees commutes with it. -/

namespace Sys2Proof.Machine

/-- The outcome with its next state, if it has one, updated by `f`. -/
def mapNext (f : State → State) : Out → Out
  | .next s => .next (f s)
  | .fault r => .fault r
  | .refused r => .refused r

/-- An update of the state that the acceptance tests and a claim neither see nor disturb. -/
structure Transparent (f : State → State) : Prop where
  fatal : ∀ s, (f s).fatal = s.fatal
  mapv : ∀ s, (f s).mapv = s.mapv
  nact : ∀ s, (f s).nact = s.nact
  srcid : ∀ s, (f s).srcid = s.srcid
  blkidx : ∀ s, (f s).blkidx = s.blkidx
  slotAt : ∀ s i, (f s).slotAt i = s.slotAt i
  setCerr : ∀ s c, (f s).setCerr c = f (s.setCerr c)
  setVerdict : ∀ s v, (f s).setVerdict v = f (s.setVerdict v)
  setPresA : ∀ s w, (f s).setPresA w = f (s.setPresA w)
  setPresB : ∀ s w, (f s).setPresB w = f (s.setPresB w)
  setSlot : ∀ s i p, (f s).setSlot i p = f (s.setSlot i p)
  emit : ∀ s r, (f s).emit r = f (s.emit r)
  raiseFatal : ∀ s c v, (f s).raiseFatal c v = f (s.raiseFatal c v)

section Transparent

variable {f : State → State}

/-- Acceptance commutes with a transparent update, where the body does. -/
theorem Transparent.accept (hf : Transparent f) {needsMap refused : Bool} {s : State} {body : State → Out}
    (hbody : body (f (s.setCerr .ok)) = mapNext f (body (s.setCerr .ok))) :
    accept needsMap refused (f s) body = mapNext f (accept needsMap refused s body) := by
  have herr (c : CErr) : cmdError c (f s) = mapNext f (cmdError c s) := by
    simp only [cmdError, mapNext, hf.setCerr]
  simp only [Machine.accept, hf.fatal, hf.mapv, hf.setCerr, hbody, herr]
  split_ifs <;> rfl

/-- A sequence commutes with a transparent update, where its parts do. -/
theorem Transparent.andThen (hf : Transparent f) {o : Out} {g : State → Out} (hg : ∀ u, g (f u) = mapNext f (g u)) :
    andThen (mapNext f o) g = mapNext f (andThen o g) := by
  cases o with
  | next s => simp only [Machine.andThen, mapNext, hf.fatal, hg]; split <;> rfl
  | fault r => rfl
  | refused r => rfl

/-- Steps 6 and 7 of a claim commute with a transparent update. -/
theorem Transparent.claimIndex (hf : Transparent f) (idx : BitVec 16) (s : State) :
    claimIndex idx (f s) = f (claimIndex idx s) := by
  simp only [Machine.claimIndex, State.diagRecord, hf.nact, hf.slotAt, hf.srcid, hf.blkidx]
  split
  · rw [hf.emit, hf.setVerdict]
  · split
    · rw [hf.emit, hf.raiseFatal]
    · rw [hf.setSlot, hf.setVerdict]

/-- A claim commutes with a transparent update that leaves both parses as they are. -/
theorem Transparent.claim (hf : Transparent f) {v : BitVec 1} {s : State} (ha : (f s).parseA v = s.parseA v)
    (hb : (f s).parseB v = s.parseB v) : claim v (f s) = f (claim v s) := by
  simp only [Machine.claim, ha, hb, hf.setPresA, hf.setPresB]
  split
  · exact hf.setVerdict _ _
  · exact hf.setVerdict _ _
  · simp only [claimMismatch, State.diagRecord, hf.srcid, hf.blkidx, hf.emit, hf.raiseFatal]
  · exact hf.claimIndex _ _

end Transparent

/-- Filling the buffers is transparent (R36). -/
theorem setBuffers_transparent (a b : SpareRecord) : Transparent fun s => s.setBuffers a b where
  fatal _ := rfl
  mapv _ := rfl
  nact _ := rfl
  srcid _ := rfl
  blkidx _ := rfl
  slotAt _ _ := rfl
  setCerr _ _ := rfl
  setVerdict _ _ := rfl
  setPresA _ _ := rfl
  setPresB _ _ := rfl
  setSlot _ _ _ := rfl
  emit _ _ := rfl
  raiseFatal _ _ _ := rfl

/-- A parse sees the protected field of its record and no other byte (R140, R146). -/
theorem parse_congr_field {S S' : SpareRecord} (h : fieldOf S = fieldOf S') (T : Byte → BitVec 7) (v : BitVec 1) :
    parse T S v = parse T S' v := by
  simp only [fieldOf, Prod.mk.injEq] at h
  obtain ⟨h13, h14, h15⟩ := h
  have hfield : protectedField S = protectedField S' := by rw [protectedField, protectedField, h13, h14, h15]
  have hblank : fieldIsBlank S = fieldIsBlank S' := by rw [fieldIsBlank, fieldIsBlank, hfield]
  simp only [parse, hblank, h13, h14, h15]

/-- Settles O33: the two parses are all that a claim takes from the buffers. -/
theorem spareBytesIgnored : Obligations.SpareBytesIgnored := by
  intro s t a b ha hb h
  have hf := setBuffers_transparent a b
  have hparseA (u : State) (hu : u.spa = s.spa) (v : BitVec 1) : (u.setBuffers a b).parseA v = u.parseA v :=
    parse_congr_field (hu ▸ ha) _ v
  have hparseB (u : State) (hu : u.spb = s.spb) (v : BitVec 1) : (u.setBuffers a b).parseB v = u.parseB v :=
    parse_congr_field (hu ▸ hb) _ v
  have hsame : exec .blkclaim (s.setBuffers a b) = mapNext (·.setBuffers a b) (exec .blkclaim s) := by
    rw [exec_blkclaim, exec_blkclaim]
    exact hf.accept (congrArg Host.Outcome.next (hf.claim (hparseA _ rfl _) (hparseB _ rfl _)))
  rwa [h] at hsame

/-- `MAPSIZE <- n` by the host (R28). -/
def State.setMapsize (s : State) (n : BitVec 17) : State := { s with mapsize := n }

/-- A write of `MAPSIZE` is transparent (R29). -/
theorem setMapsize_transparent (n : BitVec 17) : Transparent fun s => s.setMapsize n where
  fatal _ := rfl
  mapv _ := rfl
  nact _ := rfl
  srcid _ := rfl
  blkidx _ := rfl
  slotAt _ _ := rfl
  setCerr _ _ := rfl
  setVerdict _ _ := rfl
  setPresA _ _ := rfl
  setPresB _ _ := rfl
  setSlot _ _ _ := rfl
  emit _ _ := rfl
  raiseFatal _ _ _ := rfl

section Mapsize

variable (n : BitVec 17)

theorem claim_setMapsize (v : BitVec 1) (s : State) : claim v (s.setMapsize n) = (claim v s).setMapsize n :=
  (setMapsize_transparent n).claim rfl rfl

/-- No read at the port depends on `MAPSIZE`. -/
theorem portRead_setMapsize (s : State) (src : BitVec 16) (off : Nat) :
    (s.setMapsize n).portRead src off = s.portRead src off := rfl

theorem loadsp_setMapsize (s : State) : loadsp (s.setMapsize n) = mapNext (·.setMapsize n) (loadsp s) := by
  have hreq (src : BitVec 16) (off : Nat) :
      (s.setMapsize n).request src off = (s.request src off).setMapsize n := rfl
  have hlen : (s.setMapsize n).sourceLength = s.sourceLength := rfl
  have hsrc : (s.setMapsize n).srcid = s.srcid := rfl
  have hblk : (s.setMapsize n).blkidx = s.blkidx := rfl
  simp only [loadsp, hreq, hlen, hsrc, hblk, portRead_setMapsize]
  split
  · rfl
  · rfl
  · split <;> rfl

theorem scanBlocks_setMapsize (v : BitVec 1) (k : Nat) (s : State) :
    scanBlocks v k (s.setMapsize n) = mapNext (·.setMapsize n) (scanBlocks v k s) := by
  have hf := setMapsize_transparent n
  induction k generalizing s with
  | zero => rfl
  | succ k ih =>
    rw [scanBlocks, scanBlocks, loadsp_setMapsize]
    refine hf.andThen fun u => ?_
    rw [claim_setMapsize]
    have hturn (u : State) := ih (u.setCursor (u.blkidx + 1))
    have hdone : Host.Outcome.next ((claim v u).setMapsize n) = mapNext (·.setMapsize n) (.next (claim v u)) := rfl
    rw [hdone]
    exact hf.andThen hturn

/-- No command but `MAPINIT` and the reset sees `MAPSIZE` (R29). -/
theorem exec_setMapsize {i : Instr} (hi : i ≠ .mapinit) (hr : i ≠ .srst) (s : State) :
    exec i (s.setMapsize n) = mapNext (·.setMapsize n) (exec i s) := by
  have hf := setMapsize_transparent n
  cases i with
  | mapinit => exact absurd rfl hi
  | srst => exact absurd rfl hr
  | eccdec | ecccor | eccfix =>
    simp only [exec_eccdec, exec_ecccor, exec_eccfix]
    exact hf.accept rfl
  | parse =>
    rw [exec_parse, exec_parse]
    refine hf.accept ?_
    rw [apply_ite (mapNext _)]
    rfl
  | mapget =>
    rw [exec_mapget, exec_mapget]
    refine hf.accept ?_
    have hslot : ((s.setCerr .ok).setMapsize n).slotAt ((s.setCerr .ok).setMapsize n).opaIndex =
        (s.setCerr .ok).slotAt (s.setCerr .ok).opaIndex := rfl
    rw [hslot]
    cases (s.setCerr .ok).slotAt (s.setCerr .ok).opaIndex <;> rfl
  | loadsp =>
    rw [exec_loadsp, exec_loadsp]
    exact hf.accept (loadsp_setMapsize n _)
  | blkclaim =>
    rw [exec_blkclaim, exec_blkclaim]
    exact hf.accept (congrArg Host.Outcome.next (claim_setMapsize n _ _))
  | blkscan =>
    rw [exec_blkscan, exec_blkscan]
    refine hf.accept ?_
    rw [loadsp_setMapsize]
    exact hf.andThen fun u => congrArg Host.Outcome.next (claim_setMapsize n _ u)
  | srcscan =>
    rw [exec_srcscan, exec_srcscan]
    exact hf.accept (scanBlocks_setMapsize n _ _ (((s.setCerr .ok).setCursor 0#32).setVerdict .noVerdict))

end Mapsize

/-- Settles O53: a command on the state with another `MAPSIZE` ends in its old outcome with that `MAPSIZE`. -/
theorem mapsizeIsLatched : Obligations.MapsizeIsLatched := by
  intro i s t n h hi hr
  have hn := exec_setMapsize n hi hr s
  rwa [h] at hn

end Sys2Proof.Machine

/-! The register interface (R22 to R36): what a register write stores and leaves alone, and what each read shows. -/

namespace Sys2Proof.Machine

section Writes

variable (s : State)

/-- A read-write register reads back the bits of its width (R23). -/
theorem readReg_writeReg_same {reg : Reg} (h : reg.readWrite = true) (v : Word) :
    (readReg (writeReg s reg v) reg).toNat = v.toNat % 2 ^ reg.width := by
  have hv := v.isLt
  cases reg with
  | cmd | status | nact | numblocks | spareorgLo | spareorgHi | res | resh | presA | presB => cases h
  | srclenLo | blkidx | opa => exact (Nat.mod_eq_of_lt hv).symm
  | cfg | mapsize | srcid | srclenHi =>
    simp only [readReg, writeReg, Reg.width, BitVec.toNat_setWidth]
    omega
  | spa k | spb k =>
    simp only [readReg, writeReg, Reg.width, Fin.getElem_fin, Vector.getElem_set_self, BitVec.toNat_setWidth]
    omega

/-- A register write leaves the reads of the other registers alone, but `SRCLEN` those of the geometry (R23, R32). -/
theorem readReg_writeReg_other {reg other : Reg} (hne : other ≠ reg)
    (hgeo : reg = .srclenLo ∨ reg = .srclenHi → other ≠ .numblocks ∧ other ≠ .spareorgLo ∧ other ≠ .spareorgHi)
    (v : Word) : readReg (writeReg s reg v) other = readReg s other := by
  cases reg with
  | spa k =>
    cases other with
    | spa j =>
      have hjk : k.val ≠ j.val := fun e => hne (by rw [Fin.ext e])
      simp only [readReg, writeReg, Fin.getElem_fin, Vector.getElem_set_ne _ _ hjk]
    | _ => rfl
  | spb k =>
    cases other with
    | spb j =>
      have hjk : k.val ≠ j.val := fun e => hne (by rw [Fin.ext e])
      simp only [readReg, writeReg, Fin.getElem_fin, Vector.getElem_set_ne _ _ hjk]
    | _ => rfl
  | srclenLo | srclenHi =>
    obtain ⟨hblocks, hlo, hhi⟩ := hgeo (by simp)
    cases other <;> first | contradiction | rfl
  | cmd | status | nact | numblocks | spareorgLo | spareorgHi | res | resh | presA | presB => rfl
  | cfg | mapsize | srcid | blkidx | opa => cases other <;> first | contradiction | rfl

/-- A register that the host may not write ignores the write (R23, R25). -/
theorem writeReg_of_not_readWrite {reg : Reg} (h : reg.readWrite = false) (v : Word) : writeReg s reg v = s := by
  cases reg with
  | cfg | mapsize | srcid | srclenLo | srclenHi | blkidx | opa | spa | spb => cases h
  | cmd | status | nact | numblocks | spareorgLo | spareorgHi | res | resh | presA | presB => rfl

end Writes

/-- `CMD` is not read-write (R24). -/
theorem ne_cmd_of_readWrite {reg : Reg} (h : reg.readWrite = true) : reg ≠ .cmd := by
  rintro rfl; cases h

/-- Settles O54: the step is the write of the register, and `writeReg` is read back register by register. -/
theorem registerWriteThenRead : Obligations.RegisterWriteThenRead := by
  intro s rest reg v hp hrw
  obtain ⟨-, -, -, -, -, -, -, -, -, hmap, hdiag, hsources, hanswers, hlog, hpending, hreplies, hconfig⟩ :=
    writeReg_engine (s.setPending rest) reg v
  refine ⟨writeReg (s.setPending rest) reg v, ?_, hpending, ?_, fun other hne hgeo => ?_,
    hmap, hdiag, hsources, hconfig, hanswers, hlog, hreplies⟩
  · rw [step_write hp, regWrite_number (ne_cmd_of_readWrite hrw)]
  · rw [regRead_number, readReg_writeReg_same _ hrw]
  · rw [regRead_number, regRead_number, readReg_writeReg_other _ hne hgeo, readReg_setPending]

/-- The numbers that R24 gives to no register, or to one that the host may only read, name no register to write. -/
theorem regOfNumber_readOnly (r : Fin 64)
    (h : r.val = 1 ∨ r.val = 4 ∨ (8 ≤ r.val ∧ r.val ≤ 10) ∨ (13 ≤ r.val ∧ r.val ≤ 31)) :
    r ≠ 0 ∧ ∀ reg ∈ regOfNumber r, reg.readWrite = false := by
  revert h; revert r; decide

/-- The number 0 is `CMD`, and 17 to 31 are reserved (R23, R24). -/
theorem regOfNumber_zeroRead (r : Fin 64) (h : r.val = 0 ∨ (17 ≤ r.val ∧ r.val ≤ 31)) :
    regOfNumber r = some .cmd ∨ regOfNumber r = none := by
  revert h; revert r; decide

/-- Settles O55: the numbers are sorted by `regOfNumber`, and `writeReg` and `readReg` say what each does. -/
theorem ignoredWritesAndZeroReads : Obligations.IgnoredWritesAndZeroReads := by
  intro s r
  refine ⟨fun rest v hp hr => ?_, fun hr => ?_⟩
  · obtain ⟨hne, hro⟩ := regOfNumber_readOnly r hr
    rw [step_write hp]
    rcases regWrite_cases r v (s.setPending rest) with ⟨h0, -⟩ | ⟨reg, -, hreg, e⟩ | ⟨-, e⟩
    · exact absurd h0 hne
    · rw [e, writeReg_of_not_readWrite _ (hro reg hreg)]; rfl
    · exact e
  · rcases regOfNumber_zeroRead r hr with e | e <;> simp only [regRead, e, readReg]

/-- A write to number 0 issues its word (R25). -/
theorem regWrite_cmd (w : Word) (s : State) : regWrite 0 w s = issue w s := rfl

/-- Settles O3: number 0 is `CMD`, and issuing a decoded word runs its command. -/
theorem stepRunsDecodedCommand : Obligations.StepRunsDecodedCommand := by
  intro s w rest i hp hd _
  rw [step_write hp, regWrite_cmd, issue, hd]
  rfl

/-- Settles O59: the number of `STATUS` reads its word, whose fields are the codes of R227. -/
theorem statusShowsFieldsAndCodes : Obligations.StatusShowsFieldsAndCodes := by
  intro s
  have hread : regRead s 1 = s.statusWord := regRead_number s .status
  obtain ⟨hmapv, hfatal, hcause, hcerr, hbres, hzero⟩ := statusWord_fields s
  rw [hread]
  refine ⟨hmapv, hfatal, hcause.trans ?_, hcerr.trans ?_, hbres.trans ?_, hzero⟩
  · cases s.fcause <;> rfl
  · cases s.cerr <;> rfl
  · cases s.bres <;> rfl

/-- Settles O60: each number names its register, and the register reads its field. -/
theorem readsShowRegisters : Obligations.ReadsShowRegisters := by
  intro s
  have hread := regRead_number s
  refine ⟨?_, ?_, ?_, ?_, hread .srclenLo, ?_, hread .blkidx, hread .opa, hread .res, hread .resh, hread .presA,
    hread .presB, fun r k => ⟨fun hr => ?_, fun hr => ?_⟩⟩
  · exact (congrArg BitVec.toNat (hread .cfg)).trans (BitVec.toNat_setWidth_of_le (by decide))
  · exact (congrArg BitVec.toNat (hread .mapsize)).trans (BitVec.toNat_setWidth_of_le (by decide))
  · exact (congrArg BitVec.toNat (hread .nact)).trans (BitVec.toNat_setWidth_of_le (by decide))
  · exact (congrArg BitVec.toNat (hread .srcid)).trans (BitVec.toNat_setWidth_of_le (by decide))
  · exact (congrArg BitVec.toNat (hread .srclenHi)).trans (BitVec.toNat_setWidth_of_le (by decide))
  · have hnum : r = (Reg.spa k).number := by ext; simp [Reg.number]; omega
    rw [hnum, hread (.spa k)]
    exact BitVec.toNat_setWidth_of_le (by decide)
  · have hnum : r = (Reg.spb k).number := by ext; simp [Reg.number]; omega
    rw [hnum, hread (.spb k)]
    exact BitVec.toNat_setWidth_of_le (by decide)

/-- The length of the current source is its high register above its low one (R31). -/
theorem sourceLength_eq (s : State) : s.sourceLength = s.srclenHi.toNat * 2 ^ 32 + s.srclenLo.toNat := by
  rw [State.sourceLength, BitVec.toNat_append, ← Nat.shiftLeft_add_eq_or_of_lt s.srclenLo.isLt, Nat.shiftLeft_eq]

theorem sourceLength_lt (s : State) : s.sourceLength < 2 ^ 46 := (s.srclenHi ++ s.srclenLo).isLt

/-- The blocks of a source fit their register (R65). -/
theorem numBlocks_lt {L : Nat} (h : L < 2 ^ 46) : numBlocks L < 2 ^ 32 := by
  simp only [numBlocks, numPages]; omega

/-- The spare origin of a source fits its two registers (R65). -/
theorem spareOrigin_lt {L : Nat} (h : L < 2 ^ 46) : spareOrigin L < 2 ^ 46 := by
  simp only [spareOrigin, numPages]; omega

theorem readReg_numblocks (s : State) : (readReg s .numblocks).toNat = numBlocks s.sourceLength :=
  (BitVec.toNat_ofNat ..).trans (Nat.mod_eq_of_lt (numBlocks_lt (sourceLength_lt s)))

/-- The two halves of a 46-bit value, put together (R32). -/
theorem halves_toNat (x : BitVec 46) :
    ((x.extractLsb' 32 14).setWidth 32).toNat * 2 ^ 32 + (x.extractLsb' 0 32).toNat = x.toNat := by
  have hx := x.isLt
  simp only [BitVec.toNat_setWidth, BitVec.extractLsb'_toNat, Nat.shiftRight_eq_div_pow]
  omega

theorem readReg_spareorg (s : State) :
    (readReg s .spareorgHi).toNat * 2 ^ 32 + (readReg s .spareorgLo).toNat = spareOrigin s.sourceLength :=
  (halves_toNat _).trans <| (BitVec.toNat_ofNat ..).trans (Nat.mod_eq_of_lt (spareOrigin_lt (sourceLength_lt s)))

/-- Settles O56: the geometry of R64 fits the registers that show it, so the reads lose nothing. -/
theorem geometryRegisters : Obligations.GeometryRegisters := by
  intro s L hL
  have hread := regRead_number s
  have hlen : L = s.sourceLength := by
    rw [sourceLength_eq, hL]
    exact congrArg₂ (fun hi lo => hi * 2 ^ 32 + lo)
      ((congrArg BitVec.toNat (hread .srclenHi)).trans (BitVec.toNat_setWidth_of_le (by decide)))
      (congrArg BitVec.toNat (hread .srclenLo))
  have hblocks : (regRead s 8).toNat = L / 528 / 32 := by
    rw [hlen]; exact (congrArg BitVec.toNat (hread .numblocks)).trans (readReg_numblocks s)
  have horg : (regRead s 10).toNat * 2 ^ 32 + (regRead s 9).toNat = L / 528 * 512 := by
    rw [hlen]
    exact (congrArg₂ (fun hi lo : Word => hi.toNat * 2 ^ 32 + lo.toNat) (hread .spareorgHi) (hread .spareorgLo)).trans
      (readReg_spareorg s)
  exact ⟨hblocks, by rw [hblocks, Nat.div_div_eq_div_mul], horg, by rw [horg]; exact Nat.mul_div_cancel _ (by decide)⟩

/-- The zero word is a legal parse register: its class is `NONE` (R35, U10). -/
theorem presLegal_zero : PresLegal 0#32 where
  classNone _ := rfl
  eccout := by decide
  bitposTop := by decide
  reserved := by decide
  blankNoEcc := by decide
  bitposOnlyCorrected _ := by decide
  indexOnlyIndex _ := by decide

/-- Settles O14: after reset there is no map, no fatal condition and no result. -/
theorem resetSatisfiesInv : Obligations.ResetSatisfiesInv where
  sourcesCanonical := reset_sources_wf
  mapCanonical _ h := by cases h
  mapInRange _ h := by cases h
  noSizeWithoutMap _ := rfl
  sizeWithinMax := Nat.zero_le _
  fatalHasCause := by decide
  mismatchVerdict := by decide
  duplicateVerdict := by decide
  ioVerdict := by decide
  presALegal := presLegal_zero
  presBLegal := presLegal_zero
  reshReserved := by decide

end Sys2Proof.Machine

/-! The proofs of the statements on memory (20_memory.md): the spare reads lie inside the source (R64 to R68), no command
writes to a source (R61), and every step keeps the invariant. -/

namespace Sys2Proof.Machine

/-- The data and the spare area of a source's whole pages, 512 and 16 bytes a page, lie inside it (R11, R64). -/
theorem spareOrigin_add_spares_le (L : Nat) : spareOrigin L + numPages L * 16 ≤ L := by
  simp only [spareOrigin, numPages]; omega

/-- The 512 spare bytes of an existing block lie inside the spare area (R66). -/
theorem blockSpares_le {L i : Nat} (h : i < numBlocks L) : i * 512 + 512 ≤ numPages L * 16 := by
  simp only [numBlocks] at h; omega

/-- Settles O57: both records lie among their block's spare bytes, which lie inside the source. -/
theorem spareReadsInsideSource : Obligations.SpareReadsInsideSource := by
  intro L hL
  refine ⟨?pages, spareOrigin_lt hL, ?blocks, fun i hi => ?records⟩
  case pages => simp only [numPages]; omega
  case blocks => simp only [numBlocks, numPages]; omega
  case records =>
    have harea := spareOrigin_add_spares_le L
    have hblock := blockSpares_le hi
    simp only [offA, offB]
    refine ⟨by omega, by omega, ?_, ?_⟩ <;> simp only [spareOrigin] <;> omega

/-- The sources are no field that any command's footprint names, the reset's included (R61). -/
theorem exec_sources_eq {i : Instr} {s t : State} (h : exec i s = .next t) : t.sources = s.sources := by
  have ht := exec_footprint h
  cases i with
  | srst => cases h; rfl
  | _ => unfold Footprint at ht; rw [ht]

/-- Settles O49: the sources as a whole are the old ones, so every byte read from them is. -/
theorem commandsNeverWriteSources : Obligations.CommandsNeverWriteSources := by
  intro i s t h src off
  rw [exec_sources_eq h]

end Sys2Proof.Machine

/-! What a parse can answer (R141), and that its word is a legal content of `PRES_A` and `PRES_B` (R35). -/

namespace Sys2Proof.Machine

/-- Only a corrected pair has a position (R114). -/
theorem correct_pos_eq_zero {d0 d1 stored computed : Byte} (h : (correct d0 d1 stored computed).out ≠ .corrected) :
    (correct d0 d1 stored computed).pos = 0 := by
  rcases correct_cases d0 d1 stored computed with ⟨-, e⟩ | ⟨-, -, e⟩ | ⟨-, -, e0, e1, e, -⟩ <;> rw [e] at h ⊢
  exact absurd rfl h

/-- All that step 3 of `parse` can answer: invalid or an index, with the outcome of the correction (R141). -/
theorem classifyValue_cases (v : BitVec 1) (c : Correction) :
    classifyValue v c = ⟨.invalid, 0, c.out, c.pos⟩ ∨ ∃ idx, classifyValue v c = ⟨.index, idx, c.out, c.pos⟩ := by
  unfold classifyValue
  dsimp only
  split
  · exact .inr ⟨_, rfl⟩
  · split
    · exact .inl rfl
    · exact .inr ⟨_, rfl⟩

/-- All that `parse` can answer (R141): blank with nothing else, or invalid or an index with an outcome whose position is 0
unless it is `CORRECTED`. -/
theorem parse_cases (T : Byte → BitVec 7) (S : SpareRecord) (v : BitVec 1) :
    parse T S v = ⟨.blank, 0, .ok, 0⟩ ∨
    ∃ out pos, (out ≠ .corrected → pos = 0) ∧
      (parse T S v = ⟨.invalid, 0, out, pos⟩ ∨ ∃ idx, parse T S v = ⟨.index, idx, out, pos⟩) := by
  unfold parse
  dsimp only
  split
  · exact .inl rfl
  · split
    · exact .inr ⟨_, _, fun _ => rfl, .inl rfl⟩
    · exact .inr ⟨_, _, correct_pos_eq_zero, classifyValue_cases v _⟩

theorem ParseClass.code_ne_zero (cls : ParseClass) : cls.code ≠ 0 := by cases cls <;> decide

theorem ParseClass.eq_blank_of_code {cls : ParseClass} : cls.code = 1 → cls = .blank := by cases cls <;> decide

theorem EccOutcome.code_ne_three (out : EccOutcome) : out.code ≠ 3 := by cases out <;> decide

/-- A word whose fields are zero where R35 says so is a legal content of a parse register. -/
theorem presLegal_parseWord {idx : BitVec 16} {pos : BitVec 4} {out : EccOutcome} {cls : ParseClass}
    (hblank : cls = .blank → out = .ok) (hpos : out ≠ .corrected → pos = 0) (hidx : cls ≠ .index → idx = 0) :
    PresLegal (parseWord idx pos out cls) := by
  obtain ⟨hcls, hout, hbit, htop, hrsv, hindex⟩ := parseWord_fields idx pos out cls
  refine ⟨fun h => ?classNone, ?eccout, htop, hrsv, fun h => ?blankNoEcc, fun h => ?bitpos, fun h => ?index⟩
  case classNone => exact absurd (hcls.symm.trans h) cls.code_ne_zero
  case eccout => rw [hout]; exact out.code_ne_three
  case blankNoEcc =>
    obtain rfl : cls = .blank := ParseClass.eq_blank_of_code (hcls.symm.trans h)
    rw [hblank rfl, hpos (by simp [hblank rfl]), hidx (by decide)]
    decide
  case bitpos =>
    have ho : out ≠ .corrected := by rintro rfl; exact h hout
    rw [hbit, hpos ho]; rfl
  case index =>
    have hc : cls ≠ .index := by rintro rfl; exact h hcls
    rw [hindex, hidx hc]; rfl

/-- What a parse leaves in its register is legal (R35, R142). -/
theorem presLegal_parse (T : Byte → BitVec 7) (S : SpareRecord) (v : BitVec 1) : PresLegal (parse T S v).word := by
  rcases parse_cases T S v with e | ⟨out, pos, hpos, e | ⟨idx, e⟩⟩ <;> rw [e]
  · exact presLegal_parseWord (fun _ => rfl) (fun _ => rfl) (fun _ => rfl)
  · exact presLegal_parseWord nofun hpos (fun _ => rfl)
  · exact presLegal_parseWord nofun hpos (fun h => absurd rfl h)

end Sys2Proof.Machine

/-! The invariant, one lemma for each update of the state. `FATAL`, `FCAUSE` and `BRES` agree when `FCAUSE` is the cause that
`BRES` reports, and `FATAL` says whether there is one. -/

namespace Sys2Proof.Machine

/-- The cause of the fatal condition that a verdict reports (R26, R230). -/
def BRes.cause : BRes → FCause
  | .fatalMismatch => .mismatch
  | .fatalDup => .duplicate
  | .fatalIo => .io
  | .noVerdict | .skipBlank | .skipInvalid | .claimed | .dropRange => .noCause

/-- Each cause but `noCause` is the cause of one verdict. -/
theorem BRes.cause_eq_iff (v : BRes) :
    (v.cause = .mismatch ↔ v = .fatalMismatch) ∧ (v.cause = .duplicate ↔ v = .fatalDup) ∧
      (v.cause = .io ↔ v = .fatalIo) := by
  cases v <;> decide

section Updates

variable {s : State}

theorem StateInv.setCerr (h : StateInv s) (c : CErr) : StateInv (s.setCerr c) := { h with }
theorem StateInv.setCursor (h : StateInv s) (i : BitVec 32) : StateInv (s.setCursor i) := { h with }
theorem StateInv.setBuffers (h : StateInv s) (a b : SpareRecord) : StateInv (s.setBuffers a b) := { h with }
theorem StateInv.emit (h : StateInv s) (r : DiagRecord) : StateInv (s.emit r) := { h with }
theorem StateInv.request (h : StateInv s) (src : BitVec 16) (off : Nat) : StateInv (s.request src off) := { h with }
theorem StateInv.setPending (h : StateInv s) (rest : List Access) : StateInv (s.setPending rest) := { h with }
theorem StateInv.addReply (h : StateInv s) (v : Word) : StateInv (s.addReply v) := { h with }

/-- The host writes no register that the invariant speaks of. -/
theorem StateInv.writeReg (h : StateInv s) (reg : Reg) (v : Word) : StateInv (writeReg s reg v) := by
  cases reg <;> exact { h with }

theorem StateInv.setSources (h : StateInv s) {m : Memory} (hm : m.wf) : StateInv (s.setSources m) :=
  { h with sourcesCanonical := hm }

theorem StateInv.setResult (h : StateInv s) (lo : Word) {hi : Word} (hhi : hi.extractLsb' 16 15 = 0#15) :
    StateInv (s.setResult lo hi) :=
  { h with reshReserved := hhi }

theorem StateInv.setPresA (h : StateInv s) {w : Word} (hw : PresLegal w) : StateInv (s.setPresA w) :=
  { h with presALegal := hw }

theorem StateInv.setPresB (h : StateInv s) {w : Word} (hw : PresLegal w) : StateInv (s.setPresB w) :=
  { h with presBLegal := hw }

theorem StateInv.withParses (h : StateInv s) (v : BitVec 1) : StateInv (s.withParses v) :=
  (h.setPresA (presLegal_parse _ _ _)).setPresB (presLegal_parse _ _ _)

/-- Outside the fatal state there is no cause (R26). -/
theorem StateInv.fcause_of_running (h : StateInv s) (hf : s.fatal = false) : s.fcause = .noCause := by
  by_contra hc
  exact Bool.false_ne_true (hf.symm.trans (h.fatalHasCause.mpr hc))

/-- A verdict that reports no fatal condition may be written while there is none. -/
theorem StateInv.setVerdict (h : StateInv s) (hf : s.fatal = false) {v : BRes} (hv : v.cause = .noCause) :
    StateInv (s.setVerdict v) := by
  have hcause : s.fcause = v.cause := (h.fcause_of_running hf).trans hv.symm
  obtain ⟨hmismatch, hduplicate, hio⟩ := v.cause_eq_iff
  rw [← hcause] at hmismatch hduplicate hio
  exact { h with mismatchVerdict := hmismatch, duplicateVerdict := hduplicate, ioVerdict := hio }

/-- A fatal condition is raised with the verdict that reports it (R230). -/
theorem StateInv.raiseFatal (h : StateInv s) {v : BRes} (hv : v.cause ≠ .noCause) :
    StateInv (s.raiseFatal v.cause v) := by
  obtain ⟨hmismatch, hduplicate, hio⟩ := v.cause_eq_iff
  exact { h with
    fatalHasCause := iff_of_true rfl hv
    mismatchVerdict := hmismatch, duplicateVerdict := hduplicate, ioVerdict := hio }

/-- A new map is empty, and its size is the new `NACT` (R200). -/
theorem StateInv.initMap (h : StateInv s) {n : BitVec 17} (hn : n.toNat ≤ s.config.mapMax) : StateInv (s.initMap n) :=
  { h with
    mapCanonical := fun m hm => by cases hm; exact .nil
    mapInRange := fun m hm => by cases hm; exact fun p hp => by cases hp
    noSizeWithoutMap := nofun
    sizeWithinMax := hn }

/-- A slot below `NACT` may be written (R70). -/
theorem StateInv.setSlot (h : StateInv s) {i : Nat} (hi : i < s.nact.toNat) (p : Slot) : StateInv (s.setSlot i p) := by
  have hmap : ∀ m, (s.setSlot i p).map = some m → ∃ m', s.map = some m' ∧ m = Sparse.put m' i p := fun m hm => by
    obtain ⟨m', hm', e⟩ := Option.map_eq_some_iff.mp hm
    exact ⟨m', hm', e.symm⟩
  refine { h with
    mapCanonical := fun m hm => ?canonical
    mapInRange := fun m hm q hq => ?inRange
    noSizeWithoutMap := fun hm => h.noSizeWithoutMap (Option.map_eq_none_iff.mp hm) }
  case canonical =>
    obtain ⟨m', hm', rfl⟩ := hmap m hm
    exact Sparse.wf_put (h.mapCanonical m' hm') i p
  case inRange =>
    obtain ⟨m', hm', rfl⟩ := hmap m hm
    rcases Sparse.mem_put hq with rfl | hq
    · exact hi
    · exact h.mapInRange m' hm' q hq

/-- A reset block is as after reset, but for the sources and the parameters, which are the host's (R50, R260). -/
theorem StateInv.resetBlock (h : StateInv s) : StateInv s.resetBlock :=
  have hreset : StateInv State.reset := resetSatisfiesInv
  { hreset with sourcesCanonical := h.sourcesCanonical, sizeWithinMax := Nat.zero_le _ }

end Updates

/-! The invariant through the procedures of the map builder, which run only outside the fatal state. -/

section Builder

variable {s t : State}

/-- Loading ends fatally with the verdict of `IO`, or fills the buffers (R161). -/
theorem StateInv.loadsp_next (h : StateInv s) (hf : s.fatal = false) (e : loadsp s = .next t) : StateInv t := by
  rcases Machine.loadsp_next e with rfl | rfl | ⟨ra, rb, rfl⟩
  · exact (h.request _ _).raiseFatal (v := .fatalIo) (by decide)
  · exact ((h.request _ _).request _ _).raiseFatal (v := .fatalIo) (by decide)
  · exact (((h.request _ _).request _ _).setBuffers ra rb).setVerdict hf rfl

/-- Steps 6 and 7 of a claim: a slot is claimed only below `NACT` (R163). -/
theorem StateInv.claimIndex (h : StateInv s) (hf : s.fatal = false) (idx : BitVec 16) : StateInv (claimIndex idx s) := by
  rcases claimIndex_cases idx s with ⟨-, e⟩ | ⟨-, p, -, e⟩ | ⟨hlt, -, e⟩ <;> rw [e]
  · exact (h.emit _).setVerdict hf rfl
  · exact (h.emit _).raiseFatal (v := .fatalDup) (by decide)
  · exact (h.setSlot hlt _).setVerdict hf rfl

theorem StateInv.claim (h : StateInv s) (hf : s.fatal = false) (v : BitVec 1) : StateInv (claim v s) := by
  have hparses := h.withParses v
  rcases claim_cases v s with ⟨-, e⟩ | ⟨-, e⟩ | ⟨x, y, -, -, e⟩ | ⟨idx, -, e⟩ <;> rw [e]
  · exact hparses.setVerdict hf rfl
  · exact hparses.setVerdict hf rfl
  · exact (hparses.emit _).raiseFatal (v := .fatalMismatch) (by decide)
  · exact hparses.claimIndex hf idx

/-- The loop of `SRCSCAN` (R168): a turn begins only outside the fatal state, so its pieces keep the invariant. -/
theorem StateInv.scanBlocks_next {v : BitVec 1} {n : Nat} (h : StateInv s) (hf : s.fatal = false)
    (e : scanBlocks v n s = .next t) : StateInv t := by
  induction n generalizing s with
  | zero => cases e; exact h
  | succ n ih =>
    rcases scanBlocks_succ_next e with ⟨hl, -⟩ | ⟨s1, hl, hf1, ⟨rfl, -⟩ | ⟨hf2, e⟩⟩
    · exact h.loadsp_next hf hl
    · exact (h.loadsp_next hf hl).claim hf1 v
    · have hclaim := (h.loadsp_next hf hl).claim hf1 v
      exact ih (hclaim.setCursor ((Machine.claim v s1).blkidx + 1)) hf2 e

/-- A command keeps the invariant when its body, run outside the fatal state, does (R93). -/
theorem StateInv.accept_next {needsMap refused : Bool} {body : State → Out} (h : StateInv s)
    (hbody : StateInv (s.setCerr .ok) → (s.setCerr .ok).fatal = false → refused = false →
      body (s.setCerr .ok) = .next t → StateInv t)
    (e : accept needsMap refused s body = .next t) : StateInv t := by
  rcases Machine.accept_next e with ⟨c, -, rfl⟩ | ⟨hf, -, hr, e⟩
  · exact h.setCerr c
  · exact hbody (h.setCerr .ok) hf hr e

end Builder

section Steps

variable {s t : State}

/-- Every command keeps the invariant. -/
theorem StateInv.exec_next {i : Instr} (h : StateInv s) (e : exec i s = .next t) : StateInv t := by
  cases i with
  | eccdec | ecccor | eccfix =>
    simp only [exec_eccdec, exec_ecccor, exec_eccfix] at e
    exact h.accept_next (fun hs _ _ e => by cases e; exact hs.setResult _ (by decide)) e
  | parse =>
    rw [exec_parse] at e
    refine h.accept_next (fun hs _ _ e => ?_) e
    split at e <;> cases e
    · exact hs.setPresA (presLegal_parse _ _ _)
    · exact hs.setPresB (presLegal_parse _ _ _)
  | loadsp => exact h.accept_next (fun hs hf _ => hs.loadsp_next hf) (exec_loadsp s ▸ e)
  | blkclaim =>
    rw [exec_blkclaim] at e
    exact h.accept_next (fun hs hf _ e => by cases e; exact hs.claim hf _) e
  | blkscan =>
    rw [exec_blkscan] at e
    refine h.accept_next (fun hs hf _ e => ?_) e
    rcases andThen_next e with ⟨hl, -⟩ | ⟨s1, hl, hf1, hc⟩
    · exact hs.loadsp_next hf hl
    · cases hc; exact (hs.loadsp_next hf hl).claim hf1 _
  | srcscan =>
    rw [exec_srcscan] at e
    exact h.accept_next (fun hs hf _ => ((hs.setCursor 0#32).setVerdict hf rfl).scanBlocks_next hf) e
  | mapinit =>
    rw [exec_mapinit] at e
    refine h.accept_next (fun hs hf hr e => ?_) e
    cases e
    have hn : s.mapsize.toNat ≤ s.config.mapMax := by simpa [State.mapsizeTooLarge] using hr
    exact (hs.initMap hn).setVerdict hf rfl
  | mapget =>
    rw [exec_mapget] at e
    refine h.accept_next (fun hs _ _ e => ?_) e
    split at e <;> cases e
    · obtain ⟨-, hreserved, -⟩ := mappedWord_fields _
      exact hs.setResult _ hreserved
    · exact hs.setResult _ (by decide)
  | srst => cases e; exact h.resetBlock

/-- Every word written to `CMD` keeps the invariant, a command or not (R96). -/
theorem StateInv.issue_next {w : Word} (h : StateInv s) (e : issue w s = .next t) : StateInv t := by
  unfold issue at e
  split at e
  · exact h.exec_next e
  · split at e <;> cases e <;> exact h.setCerr _

theorem StateInv.regWrite_next {r : Fin 64} {v : Word} (h : StateInv s) (e : regWrite r v s = .next t) : StateInv t := by
  rcases regWrite_cases r v s with ⟨-, e'⟩ | ⟨reg, -, -, e'⟩ | ⟨-, e'⟩ <;> rw [e'] at e
  · exact h.issue_next e
  · cases e; exact h.writeReg reg v
  · cases e; exact h

/-- Every access of the host keeps the invariant. -/
theorem StateInv.perform_next {a : Access} (h : StateInv s) (e : perform a s = .next t) : StateInv t := by
  cases a with
  | read r => cases e; exact h.addReply _
  | write r v => exact h.regWrite_next e
  | reset => cases e; exact h.resetBlock
  | serve src off byte => cases e; exact h.setSources (Memory.wf_set h.sourcesCanonical src off byte)

end Steps

/-- Settles O15: a step is idle or performs the next access, and each access keeps the invariant. -/
theorem stepKeepsInv : Obligations.StepKeepsInv := by
  intro s t h e
  cases hp : s.pending with
  | nil => rw [step_idle hp] at e; cases e; exact h
  | cons a rest => rw [step_eq_perform hp] at e; exact (h.setPending rest).perform_next e

end Sys2Proof.Machine

/-! The proofs of the statements on the encoding and the acceptance of commands (30_encoding.md). First the encoding
(R90, R92): a word is the pair of its two fields, so the words of the commands are those with `RSV` zero and an opcode of
the map. -/

namespace Sys2Proof.Machine

/-- A word is its field `RSV` above its field `OPC` (R90). -/
theorem reservedField_append_opcodeField (w : Word) : (reservedField w ++ opcodeField w : BitVec (24 + 8)) = w := by
  ext k hk
  simp only [BitVec.getElem_append, reservedField, opcodeField, BitVec.getElem_extractLsb', Nat.zero_add]
  split
  · rfl
  · rw [Nat.add_sub_cancel' (by omega)]; rfl

theorem reservedField_encode (i : Instr) : reservedField (encode i) = 0#24 :=
  (extract_high _ _ (by decide)).trans (extract_whole _)

theorem opcodeField_encode (i : Instr) : opcodeField (encode i) = opcode i :=
  (extract_low _ _ (by decide)).trans (extract_whole _)

/-- The word of a command, by its fields (R90). -/
theorem eq_encode_iff {w : Word} {i : Instr} :
    w = encode i ↔ reservedField w = 0#24 ∧ opcodeField w = opcode i := by
  constructor
  · rintro rfl
    exact ⟨reservedField_encode i, opcodeField_encode i⟩
  · rintro ⟨hrsv, hopc⟩
    rw [← reservedField_append_opcodeField w, hrsv, hopc, encode]

/-- The opcode map, read from the opcode, is `opcode`, read from the command (R92). -/
theorem commandOfOpcode_eq_some_iff {opc : Byte} {i : Instr} : commandOfOpcode opc = some i ↔ opc = opcode i := by
  constructor
  · intro h
    unfold commandOfOpcode at h
    iterate 11
      obtain ⟨hopc, h⟩ | ⟨-, h⟩ := ite_eq_iff.mp h
      · cases h; exact hopc
    cases h
  · rintro rfl
    cases i <;> decide

/-- The decoder accepts a word when its `RSV` is zero and its `OPC` is in the map. -/
theorem decode_eq_ok_iff_fields {w : Word} {i : Instr} :
    decode w = .ok i ↔ reservedField w = 0#24 ∧ commandOfOpcode (opcodeField w) = some i := by
  unfold decode
  split
  next hrsv => cases commandOfOpcode (opcodeField w) <;> simp [hrsv]
  next hrsv => simp [hrsv]

/-- Exactly one word decodes to a command: the encoder's (R90). -/
theorem decode_eq_ok_iff {w : Word} {i : Instr} : decode w = .ok i ↔ w = encode i := by
  rw [decode_eq_ok_iff_fields, commandOfOpcode_eq_some_iff, eq_encode_iff]

theorem decode_encode (i : Instr) : decode (encode i) = .ok i := decode_eq_ok_iff.mpr rfl

/-- The word of a command is its opcode with zeros above (R90: `w == c`). -/
theorem encode_eq_setWidth (i : Instr) : encode i = (opcode i).setWidth 32 := by
  rw [BitVec.setWidth_eq_append (by decide)]; rfl

/-- Settles O1: both directions through the encoder's word. -/
theorem decodeEncodeAgree : Obligations.DecodeEncodeAgree :=
  ⟨fun w i => by rw [decode_eq_ok_iff, encode_eq_setWidth], decode_encode⟩

/-- Settles O2: the eleven words are the encoder's; the other two fail in one field each. -/
theorem commandWordsDecode : Obligations.CommandWordsDecode :=
  ⟨decode_encode .eccdec, decode_encode .ecccor, decode_encode .eccfix, decode_encode .parse, decode_encode .loadsp,
    decode_encode .blkclaim, decode_encode .blkscan, decode_encode .srcscan, decode_encode .mapinit,
    decode_encode .mapget, decode_encode .srst, by decide, by decide⟩

end Sys2Proof.Machine

/-! Acceptance (R93), said once for all commands: every command but `SRST` is its tests followed by its body. -/

namespace Sys2Proof.Machine

/-- Test 3 of R93 is made for these commands. -/
def needsMap : Instr → Bool
  | .blkclaim | .blkscan | .srcscan | .mapget => true
  | .eccdec | .ecccor | .eccfix | .parse | .loadsp | .mapinit | .srst => false

/-- Test 4 of R93: the operand check of R94, for the commands that have one. -/
def operandCheckFails (s : State) : Instr → Bool
  | .loadsp | .blkscan => s.cursorBeyondSource
  | .mapinit => s.mapsizeTooLarge
  | .mapget => s.indexBeyondMap
  | .eccdec | .ecccor | .eccfix | .parse | .blkclaim | .srcscan | .srst => false

/-- What a command does once it is accepted. -/
def commandBody (i : Instr) (t : State) : Out :=
  match i with
  | .eccdec => .next (t.setResult ((eccDecode t.config.ecc t.opaD0 t.opaD1).setWidth 32) 0#32)
  | .ecccor => .next (t.setResult ((correct t.opaD0 t.opaD1 t.opaStored t.opaComputed).word t.opaComputed) 0#32)
  | .eccfix =>
    .next (t.setResult ((correct t.opaD0 t.opaD1 t.opaStored (eccDecode t.config.ecc t.opaD0 t.opaD1)).word
      (eccDecode t.config.ecc t.opaD0 t.opaD1)) 0#32)
  | .parse =>
    .next (if t.opaSel = false then t.setPresA (t.parseA t.cfg).word else t.setPresB (t.parseB t.cfg).word)
  | .loadsp => loadsp t
  | .blkclaim => .next (claim t.cfg t)
  | .blkscan => andThen (loadsp t) fun t1 => .next (claim t.cfg t1)
  | .srcscan => scanBlocks t.cfg (numBlocks t.sourceLength) ((t.setCursor 0#32).setVerdict .noVerdict)
  | .mapinit => .next ((t.initMap t.mapsize).setVerdict .noVerdict)
  | .mapget =>
    .next (match t.slotAt t.opaIndex with
      | some p => t.setResult p.blk (mappedWord p.src)
      | none => t.setResult 0#32 0#32)
  | .srst => .next t.resetBlock

section Acceptance

variable {i : Instr} {s t : State}

/-- Every command but `SRST` is the tests of R93 and then its body. -/
theorem exec_eq_accept (hi : i ≠ .srst) (s : State) :
    exec i s = accept (needsMap i) (operandCheckFails s i) s (commandBody i) := by
  cases i with
  | srst => exact absurd rfl hi
  | parse =>
    rw [exec_parse]
    congr 1; funext t
    exact (apply_ite Host.Outcome.next ..).symm
  | mapget =>
    rw [exec_mapget]
    congr 1; funext t
    simp only [commandBody]
    cases t.slotAt t.opaIndex <;> rfl
  | _ => rfl

/-- Test 1 of R93, for every command it is made for. -/
theorem exec_halted (hi : i ≠ .srst) (hf : s.fatal = true) : exec i s = .next (s.setCerr .halted) := by
  rw [exec_eq_accept hi, accept_halted hf]

/-- Test 3 of R93, for every command it is made for. -/
theorem exec_nomap (hi : needsMap i = true) (hf : s.fatal = false) (hm : s.mapv = false) :
    exec i s = .next (s.setCerr .nomap) := by
  have hne : i ≠ .srst := by rintro rfl; cases hi
  rw [exec_eq_accept hne, accept_nomap hf hi hm]

/-- Test 4 of R93, for every command it is made for. -/
theorem exec_operand (hf : s.fatal = false) (hm : needsMap i = true → s.mapv = true)
    (hr : operandCheckFails s i = true) : exec i s = .next (s.setCerr .operand) := by
  have hne : i ≠ .srst := by rintro rfl; cases hr
  rw [exec_eq_accept hne, accept_operand hf hm hr]

end Acceptance

/-- A word that is no command is refused, as `HALTED` or as `ILLEGAL` (R96). -/
theorem issue_illegal {w : Word} (hw : ∀ i, w ≠ encode i) (s : State) :
    issue w s = .next (s.setCerr (if s.fatal = true then .halted else .illegal)) := by
  unfold issue
  cases hd : decode w with
  | ok i => exact absurd (decode_eq_ok_iff.mp hd) (hw i)
  | error e => dsimp only [cmdError]; split <;> rfl

/-- In the fatal state every word but `SRST`'s is refused as `HALTED` (R93, R96). -/
theorem issue_halted {w : Word} {s : State} (hf : s.fatal = true) (hw : w ≠ encode .srst) :
    issue w s = .next (s.setCerr .halted) := by
  by_cases hcmd : ∃ i, w = encode i
  · obtain ⟨i, rfl⟩ := hcmd
    have hi : i ≠ .srst := by rintro rfl; exact hw rfl
    rw [issue, decode_encode]
    exact exec_halted hi hf
  · rw [issue_illegal (not_exists.mp hcmd), if_pos hf]

/-- Settles O5: a write of number 0 issues its word, and the decoder has no command for it. -/
theorem illegalWordRefused : Obligations.IllegalWordRefused := by
  intro s w hw
  rw [regWrite_cmd, issue_illegal hw]
  rfl

/-- Settles O6: a command fails its first test, and a word that is none is refused in the same way. -/
theorem fatalStateRefusesCommands : Obligations.FatalStateRefusesCommands := by
  intro s w rest hp hf hw
  rw [step_write hp, regWrite_cmd]
  exact issue_halted hf hw

/-- Settles O8: the four commands are those of test 3. -/
theorem noMapRefused : Obligations.NoMapRefused := by
  intro s i hi hf hm
  have hneeds : needsMap i = true := by rcases hi with rfl | rfl | rfl | rfl <;> rfl
  exact exec_nomap hneeds hf hm

/-- Settles O9: each bound is the operand check of its command. -/
theorem operandRefused : Obligations.OperandRefused := by
  intro s hf
  refine ⟨fun h => ?loadsp, fun hm h => ?blkscan, fun h => ?mapinit, fun hm h => ?mapget⟩
  case loadsp => exact exec_operand hf nofun (decide_eq_true h)
  case blkscan => exact exec_operand hf (fun _ => hm) (decide_eq_true h)
  case mapinit => exact exec_operand hf nofun (decide_eq_true h)
  case mapget => exact exec_operand hf (fun _ => hm) (decide_eq_true h)

end Sys2Proof.Machine

/-! `CERR` after a command (R93, R235): a command that passes its tests ends with `OK`, for no body writes `CERR`. -/

namespace Sys2Proof.Machine

variable {i : Instr} {s t : State}

/-- The loading of a block's records does not write `CERR` (R161). -/
theorem loadsp_cerr (h : loadsp s = .next t) : t.cerr = s.cerr := by
  rcases loadsp_next h with rfl | rfl | ⟨ra, rb, rfl⟩ <;> simp

/-- A claim does not write `CERR` (R163). -/
theorem claim_cerr (v : BitVec 1) (s : State) : (claim v s).cerr = s.cerr := by
  rcases claim_cases v s with ⟨-, e⟩ | ⟨-, e⟩ | ⟨x, y, -, -, e⟩ | ⟨idx, -, e⟩ <;> rw [e]
  · simp
  · simp
  · simp [claimMismatch]
  · rcases claimIndex_cases idx (s.withParses v) with ⟨-, e⟩ | ⟨-, p, -, e⟩ | ⟨-, -, e⟩ <;> simp [e]

/-- The loop of `SRCSCAN` does not write `CERR` (R168). -/
theorem scanBlocks_cerr {v : BitVec 1} {n : Nat} (h : scanBlocks v n s = .next t) : t.cerr = s.cerr :=
  scanBlocks_keeps (P := fun u => u.cerr = s.cerr) (fun _ _ hu e => (loadsp_cerr e).trans hu)
    (fun u hu _ => (claim_cerr v u).trans hu) (fun _ _ hu => hu) n s t rfl h

/-- No body writes `CERR`; the reset's leaves it at `OK` (R93, R202). -/
theorem commandBody_cerr (hs : s.cerr = .ok) (h : commandBody i s = .next t) : t.cerr = .ok := by
  cases i with
  | eccdec | ecccor | eccfix | mapinit => cases h; exact hs
  | parse => cases h; split <;> exact hs
  | mapget => cases h; split <;> exact hs
  | loadsp => exact (loadsp_cerr h).trans hs
  | blkclaim => cases h; exact (claim_cerr _ _).trans hs
  | blkscan =>
    rcases andThen_next h with ⟨hl, -⟩ | ⟨s1, hl, -, hc⟩
    · exact (loadsp_cerr hl).trans hs
    · cases hc; exact (claim_cerr _ _).trans ((loadsp_cerr hl).trans hs)
  | srcscan => exact (scanBlocks_cerr h).trans hs
  | srst => cases h; rfl

/-- A command ends in a command error, which sets `CERR` alone, or with `CERR` at `OK` (R93, R235). -/
theorem exec_next_cerr (h : exec i s = .next t) : (∃ c, t = s.setCerr c) ∨ t.cerr = .ok := by
  by_cases hi : i = .srst
  · subst hi; cases h; exact .inr rfl
  · rw [exec_eq_accept hi] at h
    rcases accept_next h with ⟨c, -, rfl⟩ | ⟨-, -, -, h⟩
    · exact .inl ⟨c, rfl⟩
    · exact .inr (commandBody_cerr rfl h)

/-- Settles O10: a command error leaves `FATAL` as it was, and every other end has `CERR` at `OK`. -/
theorem commandErrorChangesOnlyCerr : Obligations.CommandErrorChangesOnlyCerr := by
  intro i s t h
  rcases exec_next_cerr h with ⟨c, rfl⟩ | hok
  · exact ⟨fun _ => rfl, fun hs ht => absurd (hs.symm.trans ht) Bool.false_ne_true⟩
  · exact ⟨fun hne => absurd hok hne, fun _ _ => hok⟩

end Sys2Proof.Machine

/-! Every command returns when the port answers (R91, R276): the premise excludes the one fault, and no command
makes the port silent. -/

namespace Sys2Proof.Machine

/-- The outcome is a next state whose port still answers every read. -/
def ReturnsAnswering (o : Out) : Prop := ∃ t, o = .next t ∧ t.portAnswersAll

section Answering

variable {s t : State}

theorem ReturnsAnswering.of_next (h : t.portAnswersAll) : ReturnsAnswering (.next t) := ⟨t, rfl, h⟩

/-- What returns first and whatever follows from there make a sequence that returns. -/
theorem ReturnsAnswering.andThen {o : Out} {f : State → Out} (ho : ReturnsAnswering o)
    (hf : ∀ u, u.portAnswersAll → ReturnsAnswering (f u)) : ReturnsAnswering (andThen o f) := by
  obtain ⟨u, rfl, hu⟩ := ho
  cases hfatal : u.fatal with
  | true => rw [andThen_fatal hfatal]; exact .of_next hu
  | false => rw [andThen_run hfatal]; exact hf u hu

theorem portAnswersAll_of_eq (h : t.portAnswers = s.portAnswers) (hs : s.portAnswersAll) : t.portAnswersAll := by
  rwa [State.portAnswersAll, h]

/-- A request uses up an answer and makes none silent (R61). -/
theorem portAnswersAll_request (hs : s.portAnswersAll) (src : BitVec 16) (off : Nat) :
    (s.request src off).portAnswersAll :=
  fun h => hs (List.mem_of_mem_tail h)

/-- A port that answers every read answers the next one (R62, U6). -/
theorem portRead_ne_silent (hs : s.portAnswersAll) (src : BitVec 16) (off : Nat) : s.portRead src off ≠ .silent := by
  rw [Ne, portRead_silent_iff]
  unfold State.portAnswersAll at hs
  cases hl : s.portAnswers with
  | nil => simp
  | cons a as => rintro rfl; exact hs (hl ▸ List.mem_cons_self)

theorem loadsp_returns (hs : s.portAnswersAll) : ReturnsAnswering (loadsp s) := by
  have hs1 := portAnswersAll_request hs s.srcid (offA s.sourceLength s.blkidx.toNat)
  have hs2 := portAnswersAll_request hs1 s.srcid (offB s.sourceLength s.blkidx.toNat)
  rcases loadsp_cases s with ⟨hr, -⟩ | ⟨-, e⟩ | ⟨ra, -, ⟨hr, -⟩ | ⟨-, e⟩ | ⟨rb, -, e⟩⟩
  · exact absurd hr (portRead_ne_silent hs _ _)
  · exact ⟨_, e, hs1⟩
  · exact absurd hr (portRead_ne_silent hs1 _ _)
  · exact ⟨_, e, hs2⟩
  · exact ⟨_, e, hs2⟩

/-- A claim asks nothing of the port (R163). -/
theorem claim_portAnswersAll (hs : s.portAnswersAll) (v : BitVec 1) : (claim v s).portAnswersAll := by
  have hfoot := claim_footprint v s
  unfold Footprint at hfoot
  exact portAnswersAll_of_eq (by rw [hfoot]) hs

theorem scanBlocks_returns (v : BitVec 1) (n : Nat) (hs : s.portAnswersAll) : ReturnsAnswering (scanBlocks v n s) := by
  induction n generalizing s with
  | zero => exact .of_next hs
  | succ n ih =>
    refine (loadsp_returns hs).andThen fun s1 h1 => ?_
    have hclaim : ReturnsAnswering (.next (claim v s1)) := .of_next (claim_portAnswersAll h1 v)
    exact hclaim.andThen fun s2 h2 => ih (s := s2.setCursor (s2.blkidx + 1)) h2

/-- Every body returns: those that use the port by the lemmas on its procedures, the others at once. -/
theorem commandBody_returns (i : Instr) (hs : s.portAnswersAll) : ReturnsAnswering (commandBody i s) := by
  cases i with
  | eccdec | ecccor | eccfix | mapinit | srst => exact .of_next hs
  | parse => refine .of_next ?_; split <;> exact hs
  | mapget => refine .of_next ?_; split <;> exact hs
  | loadsp => exact loadsp_returns hs
  | blkclaim => exact .of_next (claim_portAnswersAll hs _)
  | blkscan => exact (loadsp_returns hs).andThen fun s1 h1 => .of_next (claim_portAnswersAll h1 _)
  | srcscan => exact scanBlocks_returns (s := (s.setCursor 0#32).setVerdict .noVerdict) _ _ hs

theorem exec_returns (i : Instr) (hs : s.portAnswersAll) : ReturnsAnswering (exec i s) := by
  by_cases hi : i = .srst
  · subst hi; exact .of_next hs
  · rw [exec_eq_accept hi]
    rcases accept_cases (needsMap i) (operandCheckFails s i) s (commandBody i) with
      ⟨c, -, e⟩ | ⟨-, -, -, e⟩ <;> rw [e]
    · exact .of_next hs
    · exact commandBody_returns (s := s.setCerr .ok) i hs

/-- Every word written to `CMD` returns, a command or not (R96). -/
theorem issue_returns (w : Word) (hs : s.portAnswersAll) : ReturnsAnswering (issue w s) := by
  by_cases hcmd : ∃ i, w = encode i
  · obtain ⟨i, rfl⟩ := hcmd
    rw [issue, decode_encode]
    exact exec_returns i hs
  · rw [issue_illegal (not_exists.mp hcmd)]
    exact .of_next hs

/-- Every access of the host returns. -/
theorem perform_returns (a : Access) (hs : s.portAnswersAll) : ReturnsAnswering (perform a s) := by
  cases a with
  | read r => exact .of_next hs
  | write r v =>
    rcases regWrite_cases r v s with ⟨-, e⟩ | ⟨reg, -, -, e⟩ | ⟨-, e⟩ <;> rw [perform, e]
    · exact issue_returns v hs
    · obtain ⟨-, -, -, -, -, -, -, -, -, -, -, -, hanswers, -⟩ := writeReg_engine s reg v
      exact .of_next (portAnswersAll_of_eq hanswers hs)
    · exact .of_next hs
  | reset => exact .of_next hs
  | serve src off byte => exact .of_next hs

end Answering

/-- Settles O58: a command returns by its body, and a step is idle or performs the next access. -/
theorem commandsReturnWhenPortAnswers : Obligations.CommandsReturnWhenPortAnswers := by
  refine ⟨fun i s hs => exec_returns i hs, fun s hs => ?_⟩
  cases hp : s.pending with
  | nil => exact ⟨s, step_idle hp, hs⟩
  | cons a rest => rw [step_eq_perform hp]; exact perform_returns (s := s.setPending rest) a hs

end Sys2Proof.Machine

/-! The proofs of the statements on the ECC codec (40_ecc_codec.md). First the syndromes: which bytes pass the two tests of
`correct` (R114, R120), and with that what `correct` answers for each. -/

namespace Sys2Proof.Machine

/-- Test 1 of R114 accepts 0 and the eight single bits. -/
theorem popcount_le_one_iff : ∀ x : Byte, popcount x ≤ 1 ↔ x = 0#8 ∨ ∃ q : Fin 8, x = 1#8 <<< q.val := by
  decide +kernel

/-- The two bits of every pair differ exactly in the sixteen `D_p` (R114, R120). -/
theorem pairTestFails_eq_false_iff : ∀ x : Byte, pairTestFails x = false ↔ ∃ p : Fin 16, x = dataSyndrome p := by
  decide +kernel

/-- `D_p` has one bit of each of the four pairs. -/
theorem popcount_dataSyndrome : ∀ p : Fin 16, popcount (dataSyndrome p) = 4 := by decide

/-- The odd bits of `D_p` spell its position (R114). -/
theorem syndromePosition_dataSyndrome : ∀ p : Fin 16, syndromePosition (dataSyndrome p) = BitVec.ofNat 4 p.val := by
  decide

/-- Bit 3 of a position names the byte (R114). -/
theorem position_bit3 : ∀ p : Fin 16, (BitVec.ofNat 4 p.val).getLsbD 3 = decide (8 ≤ p.val) := by decide

/-- Bits 2:0 of a position name the bit of its byte (R114). -/
theorem positionMask_ofNat : ∀ p : Fin 16, positionMask (BitVec.ofNat 4 p.val) = 1#8 <<< (p.val % 8) := by decide

/-- A position in the five bits of its field (R34, conflict C1). -/
theorem position_setWidth : ∀ p : Fin 16, (BitVec.ofNat 4 p.val).setWidth 5 = BitVec.ofNat 5 p.val := by decide

section Flip

variable {j : Fin 24} {b : Fin 8}

/-- Each of the 24 bits lies in one of the three bytes of the field. -/
theorem fieldBit_cases (j : Fin 24) :
    (∃ b : Fin 8, j.val = b.val) ∨ (∃ b : Fin 8, j.val = 8 + b.val) ∨ ∃ b : Fin 8, j.val = 16 + b.val := by
  by_cases h0 : j.val < 8
  · exact .inl ⟨⟨j.val, h0⟩, rfl⟩
  by_cases h1 : j.val < 16
  · exact .inr (.inl ⟨⟨j.val - 8, by omega⟩, by simp only; omega⟩)
  · exact .inr (.inr ⟨⟨j.val - 16, by omega⟩, by simp only; omega⟩)

theorem flipField_d0 (h : j.val = b.val) (f : Byte × Byte × Byte) :
    flipField j f = (f.1 ^^^ (1#8 <<< b.val), f.2.1, f.2.2) := by
  simp [flipField, h]

theorem flipField_d1 (h : j.val = 8 + b.val) (f : Byte × Byte × Byte) :
    flipField j f = (f.1, f.2.1 ^^^ (1#8 <<< b.val), f.2.2) := by
  simp [flipField, h, show 8 + b.val < 16 by omega]

theorem flipField_checksum (h : j.val = 16 + b.val) (f : Byte × Byte × Byte) :
    flipField j f = (f.1, f.2.1, f.2.2 ^^^ (1#8 <<< b.val)) := by
  simp [flipField, h, show ¬ 16 + b.val < 8 by omega]

/-- Flipping a bit twice restores the field. -/
theorem flipField_flipField (j : Fin 24) (f : Byte × Byte × Byte) : flipField j (flipField j f) = f := by
  obtain ⟨b, h⟩ | ⟨b, h⟩ | ⟨b, h⟩ := fieldBit_cases j
  · simp [flipField_d0 h]
  · simp [flipField_d1 h]
  · simp [flipField_checksum h]

end Flip

section Correct

variable {d0 d1 stored computed : Byte}

theorem correct_of_tolerated (h : popcount (stored ^^^ computed) ≤ 1) :
    correct d0 d1 stored computed = ⟨.ok, 0#4, d0, d1⟩ := by
  simp [correct, h]

theorem correct_of_detected (hpop : 1 < popcount (stored ^^^ computed))
    (hpair : pairTestFails (stored ^^^ computed) = true) :
    correct d0 d1 stored computed = ⟨.uncorrectable, 0#4, d0, d1⟩ := by
  simp [correct, hpop, hpair]

/-- The syndrome `D_p` makes `correct` flip data bit p (R114, R120). -/
theorem correct_of_dataSyndrome {p : Fin 16} (h : stored ^^^ computed = dataSyndrome p) :
    correct d0 d1 stored computed = ⟨.corrected, BitVec.ofNat 4 p.val,
      (flipField (p.castLE (by decide)) (d0, d1, stored)).1, (flipField (p.castLE (by decide)) (d0, d1, stored)).2.1⟩ := by
  have hpair : pairTestFails (dataSyndrome p) = false := (pairTestFails_eq_false_iff _).mpr ⟨p, rfl⟩
  simp only [correct, h, popcount_dataSyndrome, hpair, syndromePosition_dataSyndrome, position_bit3, positionMask_ofNat]
  by_cases hp : p.val < 8
  · rw [flipField_d0 (b := ⟨p.val, hp⟩) rfl]
    simp [hp, Nat.mod_eq_of_lt hp]
  · rw [flipField_d1 (b := ⟨p.val - 8, by omega⟩) (by simp only [Fin.val_castLE]; omega)]
    simp [Nat.le_of_not_lt hp, show p.val % 8 = p.val - 8 by omega]

/-- Settles O20: the three classes of syndromes are the answers of the two tests of R114. -/
theorem correctOutcomeBySyndrome : Obligations.CorrectOutcomeBySyndrome := by
  intro d0 d1 st co
  refine ⟨fun h => ?tolerated, fun p h => correct_of_dataSyndrome h, fun ⟨hzero, hbit, hdata⟩ => ?detected⟩
  case tolerated => exact correct_of_tolerated ((popcount_le_one_iff _).mpr h)
  case detected =>
    have hpop : ¬ popcount (st ^^^ co) ≤ 1 := fun h =>
      ((popcount_le_one_iff _).mp h).elim hzero fun ⟨q, hq⟩ => hbit q hq
    have hpair : pairTestFails (st ^^^ co) ≠ false := fun h =>
      let ⟨p, hp⟩ := (pairTestFails_eq_false_iff _).mp h; hdata p hp
    exact correct_of_detected (by omega) (by simpa using hpair)

end Correct

end Sys2Proof.Machine

/-! The checksum of a pair (R112) under the properties of R111, and the syndrome of a field with flipped bits (R117). -/

namespace Sys2Proof.Machine

variable {T : Byte → BitVec 7}

/-- The flag bit of an entry as a field of its own. -/
theorem extract_flag (hflag : ∀ x, (T x).getLsbD 6 = parity8 x) (x : Byte) :
    (T x).extractLsb' 6 1 = BitVec.ofBool (parity8 x) := by
  ext i hi
  obtain rfl : i = 0 := by omega
  simp [← hflag]

/-- The line code above the column parity, put together by shifts (R112). -/
theorem lineCode_append : ∀ (hi lo : Bool) (cp : BitVec 6),
    (~~~((BitVec.ofBool hi ++ BitVec.ofBool lo) ++ cp) : BitVec ((1 + 1) + 6)) =
      0xFF#8 ^^^ (((BitVec.ofBool hi).setWidth 8 <<< 7) ||| ((BitVec.ofBool lo).setWidth 8 <<< 6) ||| cp.setWidth 8) := by
  decide +kernel

/-- Settles O17: the flag bits of the two entries are the parities, and the rest is the two writings of one byte. -/
theorem eccDecodeFormula : Obligations.EccDecodeFormula := by
  intro T hflag b0 b1
  simp only [eccDecode, extract_flag hflag, BitVec.extractLsb'_xor]
  exact lineCode_append _ _ _

/-- A difference in byte 0 goes to the low bit of the line code and to the column parity. -/
theorem eccDecode_xor_left (hT : EccLaws T) (b0 b1 x : Byte) :
    eccDecode T (b0 ^^^ x) b1 =
      eccDecode T b0 b1 ^^^ ((0#1 ++ (T x).extractLsb' 6 1) ++ (T x).extractLsb' 0 6 : BitVec ((1 + 1) + 6)) := by
  simp only [eccDecode, hT.linear, BitVec.extractLsb'_xor, ← BitVec.not_xor_left, BitVec.xor_append, BitVec.xor_zero]
  congr 2
  ac_rfl

/-- A difference in byte 1 goes to the high bit of the line code and to the column parity. -/
theorem eccDecode_xor_right (hT : EccLaws T) (b0 b1 x : Byte) :
    eccDecode T b0 (b1 ^^^ x) =
      eccDecode T b0 b1 ^^^ (((T x).extractLsb' 6 1 ++ 0#1) ++ (T x).extractLsb' 0 6 : BitVec ((1 + 1) + 6)) := by
  simp only [eccDecode, hT.linear, BitVec.extractLsb'_xor, ← BitVec.not_xor_left, BitVec.xor_append, BitVec.xor_zero]
  congr 2
  ac_rfl

/-- The stored checksum of a field against the checksum of its data. -/
def fieldSyndrome (T : Byte → BitVec 7) (f : Byte × Byte × Byte) : Byte := f.2.2 ^^^ eccDecode T f.1 f.2.1

/-- What flipping bit `j` of a field adds to its syndrome: `D_j` for a data bit, the bit itself in the checksum (R117). -/
def flipSyndrome (j : Fin 24) : Byte :=
  if h : j.val < 16 then dataSyndrome ⟨j.val, h⟩ else 1#8 <<< (j.val - 16)

theorem flipSyndrome_data (p : Fin 16) : flipSyndrome (p.castLE (by decide)) = dataSyndrome p := by
  simp [flipSyndrome]

theorem flipSyndrome_d0 : ∀ (j : Fin 24) (b : Fin 8), j.val = b.val →
    flipSyndrome j = ((0#1 ++ (singleBitImage b).extractLsb' 6 1) ++ (singleBitImage b).extractLsb' 0 6 :
      BitVec ((1 + 1) + 6)) := by decide

theorem flipSyndrome_d1 : ∀ (j : Fin 24) (b : Fin 8), j.val = 8 + b.val →
    flipSyndrome j = (((singleBitImage b).extractLsb' 6 1 ++ 0#1) ++ (singleBitImage b).extractLsb' 0 6 :
      BitVec ((1 + 1) + 6)) := by decide

theorem flipSyndrome_checksum {j : Fin 24} {b : Fin 8} (h : j.val = 16 + b.val) : flipSyndrome j = 1#8 <<< b.val := by
  simp [flipSyndrome, h]

theorem fieldSyndrome_codeword (T : Byte → BitVec 7) (d0 d1 : Byte) : fieldSyndrome T (codeword T d0 d1) = 0#8 :=
  BitVec.xor_self

/-- A checksum bit is its own share of the syndrome, whatever the table. -/
theorem fieldSyndrome_flip_checksum {j : Fin 24} {b : Fin 8} (h : j.val = 16 + b.val) (T : Byte → BitVec 7)
    (f : Byte × Byte × Byte) : fieldSyndrome T (flipField j f) = fieldSyndrome T f ^^^ (1#8 <<< b.val) := by
  simp only [flipField_checksum h, fieldSyndrome]
  ac_rfl

/-- By P1 and P3 every flipped bit adds its own share to the syndrome, whatever the field held before. -/
theorem fieldSyndrome_flipField (hT : EccLaws T) (j : Fin 24) (f : Byte × Byte × Byte) :
    fieldSyndrome T (flipField j f) = fieldSyndrome T f ^^^ flipSyndrome j := by
  obtain ⟨b, h⟩ | ⟨b, h⟩ | ⟨b, h⟩ := fieldBit_cases j
  · rw [flipField_d0 h, flipSyndrome_d0 j b h, ← hT.singleBit, fieldSyndrome, eccDecode_xor_left hT, ← BitVec.xor_assoc]
    rfl
  · rw [flipField_d1 h, flipSyndrome_d1 j b h, ← hT.singleBit, fieldSyndrome, eccDecode_xor_right hT, ← BitVec.xor_assoc]
    rfl
  · rw [fieldSyndrome_flip_checksum h, flipSyndrome_checksum h]

/-- Settles O21: a codeword has syndrome 0, and one flipped data bit the syndrome `D_p`, which flips it back. -/
theorem singleDataFlipCorrected : Obligations.SingleDataFlipCorrected := by
  intro T hT d0 d1
  refine ⟨?codeword, fun p e0 e1 ck hf => ?flipped⟩
  case codeword => exact correct_of_tolerated (by rw [BitVec.xor_self]; decide)
  case flipped =>
    have hsyn : fieldSyndrome T (e0, e1, ck) = dataSyndrome p := by
      rw [hf, fieldSyndrome_flipField hT, fieldSyndrome_codeword, BitVec.zero_xor, flipSyndrome_data]
    rw [correct_of_dataSyndrome hsyn, hf, flipField_flipField]
    rfl

/-- Settles O22: the syndrome of a codeword with one flipped checksum bit is that bit, which test 1 of R114 tolerates. -/
theorem checksumFlipToleratedAsOk : Obligations.ChecksumFlipToleratedAsOk := by
  intro T d0 d1 j hj e0 e1 ck hf
  obtain ⟨b, hb⟩ : ∃ b : Fin 8, j.val = 16 + b.val := ⟨⟨j.val - 16, by omega⟩, by simp only; omega⟩
  have hsyn : fieldSyndrome T (e0, e1, ck) = 1#8 <<< b.val := by
    rw [hf, fieldSyndrome_flip_checksum hb, fieldSyndrome_codeword, BitVec.zero_xor]
  have hpop : popcount (fieldSyndrome T (e0, e1, ck)) ≤ 1 := (popcount_le_one_iff _).mpr (.inr ⟨b, hsyn⟩)
  rw [correct_of_tolerated hpop]
  rw [flipField_checksum hb] at hf
  cases hf
  rfl

/-! Two flipped bits (R117 (d), R119): the sum of their shares fails both tests of R114. -/

/-- Two `D_p` agree or disagree in both bits of each pair, so every pair of their sum has equal bits. -/
theorem detected_two_data : ∀ p q : Fin 16, p ≠ q →
    1 < popcount (dataSyndrome p ^^^ dataSyndrome q) ∧ pairTestFails (dataSyndrome p ^^^ dataSyndrome q) = true := by
  decide +kernel

/-- A single bit spoils one pair of `D_p`. -/
theorem detected_data_checksum : ∀ (p : Fin 16) (b : Fin 8),
    1 < popcount (dataSyndrome p ^^^ 1#8 <<< b.val) ∧ pairTestFails (dataSyndrome p ^^^ 1#8 <<< b.val) = true := by
  decide +kernel

/-- Two single bits leave two of the four pairs at zero. -/
theorem detected_two_checksum : ∀ a b : Fin 8, a ≠ b →
    1 < popcount (1#8 <<< a.val ^^^ 1#8 <<< b.val) ∧ pairTestFails (1#8 <<< a.val ^^^ 1#8 <<< b.val) = true := by
  decide +kernel

/-- The share of a bit is a `D_p` or a single bit. -/
theorem flipSyndrome_cases (j : Fin 24) :
    (∃ p : Fin 16, j.val = p.val ∧ flipSyndrome j = dataSyndrome p) ∨
    ∃ b : Fin 8, j.val = 16 + b.val ∧ flipSyndrome j = 1#8 <<< b.val := by
  by_cases h : j.val < 16
  · exact .inl ⟨⟨j.val, h⟩, rfl, dif_pos h⟩
  · have hb : j.val = 16 + (⟨j.val - 16, by omega⟩ : Fin 8).val := by simp only; omega
    exact .inr ⟨_, hb, flipSyndrome_checksum hb⟩

theorem detected_two_flips {i j : Fin 24} (hij : i ≠ j) :
    1 < popcount (flipSyndrome i ^^^ flipSyndrome j) ∧ pairTestFails (flipSyndrome i ^^^ flipSyndrome j) = true := by
  obtain ⟨p, hi, ei⟩ | ⟨a, hi, ei⟩ := flipSyndrome_cases i <;>
    obtain ⟨q, hj, ej⟩ | ⟨b, hj, ej⟩ := flipSyndrome_cases j <;> rw [ei, ej]
  · exact detected_two_data p q (by rintro rfl; omega)
  · exact detected_data_checksum p b
  · rw [BitVec.xor_comm]
    exact detected_data_checksum q a
  · exact detected_two_checksum a b (by rintro rfl; omega)

/-- Settles O23: the syndrome is the sum of the shares of the two bits. -/
theorem doubleErrorDetected : Obligations.DoubleErrorDetected := by
  intro T hT d0 d1 i j hij e0 e1 ck hf
  have hsyn : fieldSyndrome T (e0, e1, ck) = flipSyndrome i ^^^ flipSyndrome j := by
    rw [hf, fieldSyndrome_flipField hT, fieldSyndrome_flipField hT, fieldSyndrome_codeword, BitVec.zero_xor,
      BitVec.xor_comm]
  obtain ⟨hpop, hpair⟩ := detected_two_flips hij
  rw [← hsyn] at hpop hpair
  exact correct_of_detected hpop hpair

end Sys2Proof.Machine

/-! The table (R110, R111): a linear table is known from its eight single-bit entries. -/

namespace Sys2Proof.Machine

variable {T U : Byte → BitVec 7}

/-- Bit `b` of a byte, in its place. -/
def bitPart (x : Byte) (b : Fin 8) : Byte := if x.getLsbD b.val = true then 1#8 <<< b.val else 0#8

/-- A byte is the sum of its eight bits. -/
theorem xor_bitParts : ∀ x : Byte, bitPart x 0 ^^^ bitPart x 1 ^^^ bitPart x 2 ^^^ bitPart x 3 ^^^
    bitPart x 4 ^^^ bitPart x 5 ^^^ bitPart x 6 ^^^ bitPart x 7 = x := by
  decide +kernel

theorem EccLaws.apply_zero (hT : EccLaws T) : T 0#8 = 0#7 := by
  have h := hT.linear 0#8 0#8
  rwa [BitVec.xor_self, BitVec.xor_self] at h

/-- The entry of one bit is fixed by P1 and P3. -/
theorem EccLaws.apply_bitPart (hT : EccLaws T) (x : Byte) (b : Fin 8) :
    T (bitPart x b) = if x.getLsbD b.val = true then singleBitImage b else 0#7 := by
  unfold bitPart
  split
  · exact hT.singleBit b
  · exact hT.apply_zero

/-- P1 and P3 leave one table only. -/
theorem EccLaws.unique (hT : EccLaws T) (hU : EccLaws U) (x : Byte) : T x = U x := by
  rw [← xor_bitParts x]
  simp only [hT.linear, hU.linear, hT.apply_bitPart, hU.apply_bitPart]

/-- Settles O25: the formula's table is one with the properties (`eccEntry_laws`), and there is no other. -/
theorem tableForcedByLaws : Obligations.TableForcedByLaws :=
  fun _ hT x => hT.unique eccEntry_laws x

/-- Settles O26: the default table is the formula's, evaluated at all 256 bytes. -/
theorem tableZeroEntries : Obligations.TableZeroEntries := by
  unfold Obligations.TableZeroEntries
  rw [defaultConfig_ecc]
  decide +kernel

end Sys2Proof.Machine

/-! The commands of the codec: acceptance (R93) and then the write of `RES` and `RESH` (R34). -/

namespace Sys2Proof.Machine

/-- A command that needs no map and has no operand check is its body in every state that is not fatal (R93). -/
theorem exec_run {i : Instr} {s : State} (hi : i ≠ .srst) (hf : s.fatal = false) (hm : needsMap i = true → s.mapv = true)
    (hr : operandCheckFails s i = false) : exec i s = commandBody i (s.setCerr .ok) := by
  rw [exec_eq_accept hi, accept_run hf hm hr]

/-- `RES` after a correction shows it (R34). -/
theorem resShows_word (c : Correction) (computed : Byte) : ResShows (c.word computed) c computed :=
  let ⟨hout, hpos, hzero, hd0, hd1, hcomp⟩ := correctionWord_fields computed c.d1 c.d0 c.pos c.out
  ⟨hout, hpos, hzero, hd0, hd1, hcomp⟩

/-- Settles O16: an accepted `ECCDEC` is its body. -/
theorem eccdecResult : Obligations.EccdecResult :=
  fun _ hf => exec_run nofun hf nofun rfl

/-- Settles O18: an accepted `ECCCOR` is its body, and the word it writes shows the correction. -/
theorem ecccorResult : Obligations.EcccorResult :=
  fun _ hf => ⟨_, exec_run nofun hf nofun rfl, resShows_word _ _⟩

/-- Settles O19: an accepted `ECCFIX` is its body, and the word it writes shows the correction. -/
theorem eccfixResult : Obligations.EccfixResult :=
  fun _ hf => ⟨_, exec_run nofun hf nofun rfl, resShows_word _ _⟩

/-- Settles O24: `ECCFIX` writes what `correct` answers (O19), and that repairs the flipped bit (O21). -/
theorem eccfixRepairsCodeword : Obligations.EccfixRepairsCodeword := by
  intro s d0 d1 p hT hf hfield
  obtain ⟨w, hexec, hshows⟩ := eccfixResult s hf
  rw [(singleDataFlipCorrected _ hT d0 d1).2 p _ _ _ hfield] at hshows
  exact ⟨_, hexec, hshows.outcome, hshows.bitpos.trans (position_setWidth p), hshows.d0, hshows.d1⟩

end Sys2Proof.Machine

/-! The proofs of the statements on the spare-metadata parser (41_spare_parser.md). First the branches of `parse` (R141),
read on the protected field: blank, uncorrectable, or the classification of the corrected pair. -/

namespace Sys2Proof.Machine

/-- Step 2 of `parse` (R141): the correction of a protected field against the checksum of its data. -/
def fieldCorrection (T : Byte → BitVec 7) (f : Byte × Byte × Byte) : Correction :=
  correct f.1 f.2.1 f.2.2 (eccDecode T f.1 f.2.1)

/-- Two concatenations of the same shape agree only part by part. -/
theorem append_inj_iff {m n : Nat} {x x' : BitVec m} {y y' : BitVec n} : x ++ y = x' ++ y' ↔ x = x' ∧ y = y' := by
  refine ⟨fun h => ⟨?high, ?low⟩, fun ⟨hx, hy⟩ => hx ▸ hy ▸ rfl⟩
  case high => simpa only [BitVec.extractLsb'_append_eq_left] using congrArg (BitVec.extractLsb' n m) h
  case low => simpa only [BitVec.extractLsb'_append_eq_right] using congrArg (BitVec.extractLsb' 0 n) h

/-- Step 1 of `parse` is the test for the two blank fields. -/
theorem fieldIsBlank_iff (S : SpareRecord) : fieldIsBlank S = true ↔ blankField (fieldOf S) := by
  have hconcat (b : Byte) : protectedField S = (b ++ (b ++ b) : BitVec (8 + (8 + 8))) ↔ fieldOf S = (b, b, b) := by
    rw [fieldOf, Prod.mk.injEq, Prod.mk.injEq]
    exact append_inj_iff.trans (and_congr_right' append_inj_iff)
  rw [fieldIsBlank, Bool.or_eq_true, decide_eq_true_iff, decide_eq_true_iff]
  exact or_congr (hconcat 0x00#8) (hconcat 0xFF#8)

section Parse

variable {T : Byte → BitVec 7} {S : SpareRecord} {v : BitVec 1} {c : Correction}

theorem parse_of_blank (hb : blankField (fieldOf S)) : parse T S v = ⟨.blank, 0#16, .ok, 0#4⟩ :=
  if_pos ((fieldIsBlank_iff S).mpr hb)

theorem parse_of_uncorrectable (hb : ¬ blankField (fieldOf S))
    (hu : (fieldCorrection T (fieldOf S)).out = .uncorrectable) : parse T S v = ⟨.invalid, 0#16, .uncorrectable, 0#4⟩ :=
  (if_neg (mt (fieldIsBlank_iff S).mp hb)).trans (if_pos hu)

theorem parse_of_correctable (hb : ¬ blankField (fieldOf S)) (hc : fieldCorrection T (fieldOf S) = c)
    (hu : c.out ≠ .uncorrectable) : parse T S v = classifyValue v c := by
  subst hc
  exact (if_neg (mt (fieldIsBlank_iff S).mp hb)).trans (if_neg hu)

end Parse

/-- Bit 15 of the value is bit 7 of the first byte: the marker (R141 step 3). -/
theorem marker_append (d0 d1 : Byte) : (d0 ++ d1 : BitVec (8 + 8)).getLsbD 15 = d0.getLsbD 7 := by
  rw [BitVec.getLsbD_append, if_neg (by decide)]

section Classify

variable {out : EccOutcome} {pos : BitVec 4} {d0 d1 : Byte}

theorem classifyValue_alternate :
    classifyValue 1#1 ⟨out, pos, d0, d1⟩ = ⟨.index, (d0 ++ d1 : BitVec (8 + 8)), out, pos⟩ := rfl

theorem classifyValue_noMarker (h : d0.getLsbD 7 = false) :
    classifyValue 0#1 ⟨out, pos, d0, d1⟩ = ⟨.invalid, 0#16, out, pos⟩ :=
  if_pos ((marker_append d0 d1).trans h)

theorem classifyValue_marker (h : d0.getLsbD 7 = true) :
    classifyValue 0#1 ⟨out, pos, d0, d1⟩ =
      ⟨.index, ((d0 ++ d1 : BitVec (8 + 8)) &&& 0x7FFF#16) >>> 1, out, pos⟩ :=
  if_neg (by rw [marker_append, h]; decide)

end Classify

/-- Step 3 keeps the outcome of the correction. -/
theorem classifyValue_out (v : BitVec 1) (c : Correction) : (classifyValue v c).out = c.out := by
  obtain e | ⟨idx, e⟩ := classifyValue_cases v c <;> rw [e]

/-- Step 3 never answers blank. -/
theorem classifyValue_cls_ne_blank (v : BitVec 1) (c : Correction) : (classifyValue v c).cls ≠ .blank := by
  obtain e | ⟨idx, e⟩ := classifyValue_cases v c <;> rw [e] <;> nofun

/-- Step 3 refuses a value in standard mode only, for its missing marker. -/
theorem classifyValue_invalid_iff (v : BitVec 1) (c : Correction) :
    (classifyValue v c).cls = .invalid ↔ v = 0#1 ∧ c.d0.getLsbD 7 = false := by
  obtain rfl | rfl := BitVec.eq_zero_or_eq_one v
  · cases h : c.d0.getLsbD 7 with
    | false => rw [classifyValue_noMarker h]; simp
    | true => rw [classifyValue_marker h]; simp
  · rw [classifyValue_alternate]; simp

/-- Settles O28: steps 2 and 3 of `parse` never answer blank. -/
theorem parseBlankIff : Obligations.ParseBlankIff := by
  intro T S v
  refine ⟨⟨fun h => ?_, fun hb => by rw [parse_of_blank hb]⟩, parse_of_blank⟩
  by_contra hb
  by_cases hu : (fieldCorrection T (fieldOf S)).out = .uncorrectable
  · rw [parse_of_uncorrectable hb hu] at h
    cases h
  · rw [parse_of_correctable hb rfl hu] at h
    exact classifyValue_cls_ne_blank v _ h

/-- An invalid parse enters the table of R162 by its class alone. -/
theorem reconcile_invalid_congr {a a' : ParseResult} (h : a.cls = .invalid) (h' : a'.cls = .invalid) (b : ParseResult) :
    reconcile a b = reconcile a' b ∧ reconcile b a = reconcile b a' := by
  cases hb : b.cls <;> simp [reconcile, h, h', hb]

theorem EccOutcome.ne_uncorrectable_iff {out : EccOutcome} : out ≠ .uncorrectable ↔ out = .ok ∨ out = .corrected := by
  cases out <;> simp

/-- The two ways to be invalid (R147), branch by branch of `parse`. -/
theorem parse_invalid_iff (T : Byte → BitVec 7) (S : SpareRecord) (v : BitVec 1) :
    (parse T S v).cls = .invalid ↔ (parse T S v).out = .uncorrectable ∨ (v = 0#1 ∧ ¬ blankField (fieldOf S) ∧
      ((fieldCorrection T (fieldOf S)).out = .ok ∨ (fieldCorrection T (fieldOf S)).out = .corrected) ∧
      (fieldCorrection T (fieldOf S)).d0.getLsbD 7 = false) := by
  rw [← EccOutcome.ne_uncorrectable_iff]
  by_cases hb : blankField (fieldOf S)
  · simp [parse_of_blank hb, hb]
  by_cases hu : (fieldCorrection T (fieldOf S)).out = .uncorrectable
  · simp [parse_of_uncorrectable hb hu]
  · simp [parse_of_correctable hb rfl hu, classifyValue_invalid_iff, classifyValue_out, hb, hu]

/-- Settles O29: the class by the branches of `parse`, the builder by the table of R162. -/
theorem parseInvalidIff : Obligations.ParseInvalidIff :=
  ⟨parse_invalid_iff, fun _ _ b ha ha' => reconcile_invalid_congr ha ha' b⟩

end Sys2Proof.Machine

/-! Reading back what was written (R144, R145): the protected field of a record holds a codeword, as it is or with one data
bit flipped. -/

namespace Sys2Proof.Machine

theorem bytes_append (v : BitVec 16) : (v.extractLsb' 8 8 ++ v.extractLsb' 0 8 : BitVec (8 + 8)) = v :=
  (BitVec.extractLsb'_append_extractLsb'_eq_extractLsb' rfl).trans BitVec.extractLsb'_eq_self

/-- A codeword is left as it is, whatever the table. -/
theorem fieldCorrection_codeword {T : Byte → BitVec 7} {f : Byte × Byte × Byte} {d0 d1 : Byte}
    (hf : f = codeword T d0 d1) : fieldCorrection T f = ⟨.ok, 0#4, d0, d1⟩ := by
  subst hf
  exact correct_of_tolerated (by rw [codeword, BitVec.xor_self]; decide)

section StandardValue

variable {index : BitVec 14} {x : BitVec 1} {v : BitVec 16} (hv : v = (1#1 ++ (index ++ x) : BitVec (1 + (14 + 1))))

include hv

/-- A value of standard mode has its marker in the first byte (R144). -/
theorem marker_of_standardValue : (v.extractLsb' 8 8).getLsbD 7 = true := by
  rw [hv, BitVec.getLsbD_extractLsb', BitVec.getLsbD_append]
  simp

/-- Clearing the marker and dropping bit 0 leaves the index. -/
theorem index_of_standardValue : (v &&& 0x7FFF#16) >>> 1 = index.setWidth 16 := by
  have hval : v.toNat = 2 ^ 15 + (index.toNat * 2 + x.toNat) := by
    rw [hv, BitVec.toNat_append, ← Nat.shiftLeft_add_eq_or_of_lt (index ++ x).isLt, BitVec.toNat_append,
      ← Nat.shiftLeft_add_eq_or_of_lt x.isLt, Nat.shiftLeft_eq, Nat.shiftLeft_eq]
    rfl
  apply BitVec.eq_of_toNat_eq
  have hmask : (v &&& 0x7FFF#16).toNat = v.toNat % 2 ^ 15 := Nat.and_two_pow_sub_one_eq_mod v.toNat 15
  rw [BitVec.toNat_ushiftRight, hmask, hval, BitVec.toNat_setWidth, Nat.shiftRight_eq_div_pow]
  omega

/-- A value with its marker reads as its bits 14:1 in standard mode (R144). -/
theorem classifyValue_standard (out : EccOutcome) (pos : BitVec 4) :
    classifyValue 0#1 ⟨out, pos, v.extractLsb' 8 8, v.extractLsb' 0 8⟩ = ⟨.index, index.setWidth 16, out, pos⟩ := by
  rw [classifyValue_marker (marker_of_standardValue hv)]
  simp only [bytes_append, index_of_standardValue hv]

end StandardValue

/-- Settles O30: the codeword is left as it is, and with its marker the field can be blank only as all ones. -/
theorem standardIndexRoundTrip : Obligations.StandardIndexRoundTrip := by
  intro T S index x v hv hfield hones
  have hblank : ¬ blankField (fieldOf S) := by
    rintro (hzeros | h)
    · have hd0 : v.extractLsb' 8 8 = 0x00#8 := congrArg Prod.fst (hfield.symm.trans hzeros)
      have hmarker := marker_of_standardValue hv
      rw [hd0] at hmarker
      cases hmarker
    · exact hones h
  rw [parse_of_correctable hblank (fieldCorrection_codeword hfield) nofun, classifyValue_standard hv]

/-- Settles O31: the codeword is left as it is, and the alternate mode takes its value whole. -/
theorem alternateIndexRoundTrip : Obligations.AlternateIndexRoundTrip := by
  intro T S v hfield hblank
  rw [parse_of_correctable hblank (fieldCorrection_codeword hfield) nofun, classifyValue_alternate, bytes_append]

/-- Settles O32: the flipped bit is back (O21) before the marker is tested. -/
theorem parseRepairsMarker : Obligations.ParseRepairsMarker := by
  intro T S index x v p hT hv hfield hblank
  have hcorr : fieldCorrection T (fieldOf S) =
      ⟨.corrected, BitVec.ofNat 4 p.val, v.extractLsb' 8 8, v.extractLsb' 0 8⟩ :=
    (singleDataFlipCorrected T hT _ _).2 p _ _ _ hfield
  rw [parse_of_correctable hblank hcorr nofun, classifyValue_standard hv]

end Sys2Proof.Machine

/-! The command `PARSE` (R142): acceptance (R93) and then the write of one parse register (R35). -/

namespace Sys2Proof.Machine

/-- A parse register shows the parse whose word it holds (R35). -/
theorem presShows_word (p : ParseResult) : PresShows p.word p :=
  let ⟨hcls, hout, hpos, _, hrsv, hidx⟩ := parseWord_fields p.idx p.pos p.out p.cls
  ⟨hcls, hout, hpos, hrsv, hidx⟩

/-- Settles O27: an accepted `PARSE` is its body, which `OPA[0]` takes to one register or the other. -/
theorem parseCommandResult : Obligations.ParseCommandResult := by
  intro s hf
  have hexec : exec .parse s = commandBody .parse (s.setCerr .ok) := exec_run nofun hf nofun rfl
  refine ⟨fun hsel => ⟨_, hexec.trans ?selA, presShows_word _⟩, fun hsel => ⟨_, hexec.trans ?selB, presShows_word _⟩⟩
  case selA => exact congrArg Host.Outcome.next (if_pos hsel)
  case selB => exact congrArg Host.Outcome.next (if_neg (by simpa [State.opaSel] using hsel))

end Sys2Proof.Machine

/-! The proofs of the statements on the block-map builder (42_block_map_builder.md). First `BLKCLAIM` (R164): the table of R162
read from the classes of the two parses, the end of a claim for each of its verdicts, and the command as its claim. -/

namespace Sys2Proof.Machine

section Reconcile

variable {a b : ParseResult}

theorem reconcile_of_blank (h : a.cls = .blank ∨ b.cls = .blank) : reconcile a b = .skipBlank := by
  rcases h with h | h
  · simp only [reconcile, h]
  · cases ha : a.cls <;> simp only [reconcile, ha, h]

theorem reconcile_of_invalid (ha : a.cls = .invalid) (hb : b.cls = .invalid) : reconcile a b = .skipInvalid := by
  simp only [reconcile, ha, hb]

theorem reconcile_of_mismatch (ha : a.cls = .index) (hb : b.cls = .index) (hne : a.idx ≠ b.idx) :
    reconcile a b = .mismatch a.idx b.idx := by
  simp only [reconcile, ha, hb, if_neg hne]

/-- Two copies that resolve to an index send the claim on with it. -/
theorem reconcile_of_resolvesTo {idx : BitVec 16} (h : resolvesTo a b idx) : reconcile a b = .goOn idx := by
  rcases h with ⟨ha, hb, rfl, hidx⟩ | ⟨ha, hb, rfl⟩ | ⟨ha, hb, rfl⟩
  · simp only [reconcile, ha, hb, hidx, if_true]
  · simp only [reconcile, ha, hb]
  · simp only [reconcile, ha, hb]

end Reconcile

section Claim

variable {v : BitVec 1} {s : State} {idx : BitVec 16}

theorem claim_of_skipBlank (h : reconcile (s.parseA v) (s.parseB v) = .skipBlank) :
    claim v s = (s.withParses v).setVerdict .skipBlank := by
  simp only [claim, h, State.withParses]

theorem claim_of_skipInvalid (h : reconcile (s.parseA v) (s.parseB v) = .skipInvalid) :
    claim v s = (s.withParses v).setVerdict .skipInvalid := by
  simp only [claim, h, State.withParses]

theorem claim_of_mismatch {x y : BitVec 16} (h : reconcile (s.parseA v) (s.parseB v) = .mismatch x y) :
    claim v s = claimMismatch x y (s.withParses v) := by
  simp only [claim, h, State.withParses]

theorem claim_of_goOn (h : reconcile (s.parseA v) (s.parseB v) = .goOn idx) :
    claim v s = claimIndex idx (s.withParses v) := by
  simp only [claim, h, State.withParses]

theorem claimIndex_of_outOfRange (h : s.nact.toNat ≤ idx.toNat) :
    claimIndex idx s = (s.emit (s.diagRecord .range idx)).setVerdict .dropRange :=
  if_pos h

theorem claimIndex_of_taken {p : Slot} (hlt : idx.toNat < s.nact.toNat) (hp : s.slotAt idx.toNat = some p) :
    claimIndex idx s =
      (s.emit { s.diagRecord .duplicate idx with psrc := p.src, pblk := p.blk }).raiseFatal .duplicate .fatalDup := by
  simp only [claimIndex, if_neg (Nat.not_le.mpr hlt), hp]

theorem claimIndex_of_free (hlt : idx.toNat < s.nact.toNat) (hfree : s.slotAt idx.toNat = none) :
    claimIndex idx s = (s.setSlot idx.toNat ⟨s.srcid, s.blkidx⟩).setVerdict .claimed := by
  simp only [claimIndex, if_neg (Nat.not_le.mpr hlt), hfree]

end Claim

/-- The map in force, slot by slot (R40). -/
theorem slotAt_of_map {s : State} {m : SlotMap} (h : s.map = some m) (i : Nat) : s.slotAt i = Sparse.get m i := by
  simp only [State.slotAt, h]

theorem mapv_of_map {s : State} {m : SlotMap} (h : s.map = some m) : s.mapv = true := by
  rw [State.mapv, h]; rfl

/-- An accepted `BLKCLAIM` is its claim (R164). -/
theorem exec_blkclaim_run {s : State} (hf : s.fatal = false) (hm : s.mapv = true) :
    exec .blkclaim s = .next (claim s.cfg (s.setCerr .ok)) :=
  exec_run nofun hf (fun _ => hm) rfl

/-- The state in which an accepted `BLKCLAIM` stands once both copies are parsed (R163). -/
def State.parsed (s : State) : State :=
  { s with cerr := .ok, presA := (s.parseA s.cfg).word, presB := (s.parseB s.cfg).word }

theorem withParses_setCerr (s : State) : (s.setCerr .ok).withParses s.cfg = s.parsed := rfl

/-- A `BLKCLAIM` whose copies resolve to an index ends as steps 6 and 7 do for it (R163). -/
theorem exec_blkclaim_of_resolvesTo {s : State} {idx : BitVec 16} (hf : s.fatal = false) (hm : s.mapv = true)
    (h : resolvesTo (s.parseA s.cfg) (s.parseB s.cfg) idx) : exec .blkclaim s = .next (claimIndex idx s.parsed) := by
  rw [exec_blkclaim_run hf hm, claim_of_goOn (s := s.setCerr .ok) (reconcile_of_resolvesTo h), withParses_setCerr]

/-- Settles O37: the two skips of R162, by the classes. -/
theorem blkclaimSkips : Obligations.BlkclaimSkips := by
  rintro s _ _ hf hm rfl rfl
  refine ⟨fun hblank => ?_, fun ha hb => ?_⟩ <;> rw [exec_blkclaim_run hf hm]
  · rw [claim_of_skipBlank (s := s.setCerr .ok) (reconcile_of_blank hblank), withParses_setCerr]; rfl
  · rw [claim_of_skipInvalid (s := s.setCerr .ok) (reconcile_of_invalid ha hb), withParses_setCerr]; rfl

/-- Settles O38: step 5 ends the claim before `NACT` or the map is looked at. -/
theorem blkclaimMismatch : Obligations.BlkclaimMismatch := by
  rintro s _ _ hf hm rfl rfl ha hb hne
  rw [exec_blkclaim_run hf hm, claim_of_mismatch (s := s.setCerr .ok) (reconcile_of_mismatch ha hb hne),
    withParses_setCerr]
  rfl

/-- Settles O39: step 6 drops the index. -/
theorem blkclaimDropsOutOfRange : Obligations.BlkclaimDropsOutOfRange := by
  rintro s _ _ idx hf hm rfl rfl h hrange
  rw [exec_blkclaim_of_resolvesTo hf hm h, claimIndex_of_outOfRange (s := s.parsed) hrange]
  rfl

/-- Settles O40: step 7 finds the slot taken. -/
theorem blkclaimDuplicate : Obligations.BlkclaimDuplicate := by
  rintro s _ _ idx m p hf hm rfl rfl h hlt hp
  have htaken : s.slotAt idx.toNat = some p := (slotAt_of_map hm _).trans hp
  rw [exec_blkclaim_of_resolvesTo hf (mapv_of_map hm) h, claimIndex_of_taken (s := s.parsed) hlt htaken]
  rfl

/-- Settles O41: step 7 finds the slot free and writes that one entry of the map. -/
theorem blkclaimClaims : Obligations.BlkclaimClaims := by
  rintro s _ _ idx m hf hm rfl rfl h hlt hfree
  have hslot (j : Nat) := Sparse.get_put m idx.toNat j (⟨s.srcid, s.blkidx⟩ : Slot)
  have hmap : (s.setSlot idx.toNat ⟨s.srcid, s.blkidx⟩).map = some (Sparse.put m idx.toNat ⟨s.srcid, s.blkidx⟩) := by
    rw [setSlot_map, hm]; rfl
  have hunmapped : s.slotAt idx.toNat = none := (slotAt_of_map hm _).trans hfree
  refine ⟨_, ?exec, (hslot _).trans (if_pos rfl), fun j hj => (hslot j).trans (if_neg hj)⟩
  rw [exec_blkclaim_of_resolvesTo hf (mapv_of_map hm) h, claimIndex_of_free (s := s.parsed) hlt hunmapped, ← hmap]
  rfl

end Sys2Proof.Machine

/-! `LOADSP` (R161): one read at the port by what the host lets it answer, the three ends of `loadsp`, and the command. -/

namespace Sys2Proof.Machine

section Port

variable {s : State} {src : BitVec 16} {off : Nat}

/-- A host that lets the port be faithful has it serve the next request. -/
theorem portAnswer_of_portFaithful (h : s.portFaithful) : s.portAnswers.headD .serve = .serve := by
  cases hl : s.portAnswers with
  | nil => rfl
  | cons a as => exact h a (hl ▸ List.mem_cons_self)

theorem portFaithful_request (h : s.portFaithful) (src : BitVec 16) (off : Nat) : (s.request src off).portFaithful :=
  fun a ha => h a (List.mem_of_mem_tail ha)

/-- A faithful port gives the record that the source holds (R62). -/
theorem portRead_of_record {r : SpareRecord} (h : s.portFaithful) (hr : s.sources.record src off = some r) :
    s.portRead src off = .bytes r :=
  (portRead_bytes_iff s src off r).mpr ⟨portAnswer_of_portFaithful h, (Memory.record_eq_some_iff ..).mp hr⟩

/-- The next answer of the port, from the first of the list (R62): beyond the list a request is served. -/
theorem portAnswer_eq_serve_iff :
    s.portAnswers.headD .serve = .serve ↔ s.portAnswers.head? = none ∨ s.portAnswers.head? = some .serve := by
  cases s.portAnswers <;> simp

theorem portAnswer_eq_ioError_iff : s.portAnswers.headD .serve = .ioError ↔ s.portAnswers.head? = some .ioError := by
  cases s.portAnswers <;> simp

/-- A read that the host serves and whose bytes are all there gives a record (R62). -/
theorem portRead_of_served (h : s.portAnswers.head? = none ∨ s.portAnswers.head? = some .serve)
    (hbytes : ∀ k, k < 16 → (s.sources.byteAt src (off + k)).isSome = true) : ∃ r, s.portRead src off = .bytes r := by
  cases hr : s.sources.record src off with
  | none =>
    obtain ⟨k, hk, hnone⟩ := (Memory.record_eq_none_iff ..).mp hr
    have := hbytes k hk
    rw [hnone] at this
    cases this
  | some r =>
    exact ⟨r, (portRead_bytes_iff ..).mpr ⟨portAnswer_eq_serve_iff.mpr h, (Memory.record_eq_some_iff ..).mp hr⟩⟩

/-- A read that is answered fails when the host says so or when a byte of the record is not there (R62). -/
theorem portRead_of_failed (hanswered : s.portAnswers.head? ≠ some .silent)
    (h : s.portAnswers.head? = some .ioError ∨ ∃ k, k < 16 ∧ s.sources.byteAt src (off + k) = none) :
    s.portRead src off = .ioError := by
  rw [portRead_ioError_iff, portAnswer_eq_ioError_iff, portAnswer_eq_serve_iff]
  rcases h with h | hbyte
  · exact .inl h
  · match hl : s.portAnswers.head? with
    | none => exact .inr ⟨.inl rfl, hbyte⟩
    | some .serve => exact .inr ⟨.inr rfl, hbyte⟩
    | some .ioError => exact .inl rfl
    | some .silent => exact absurd hl hanswered

end Port

/-- The state once copy A of the block under the cursor has been asked for (R69). -/
def State.askA (s : State) : State := s.request s.srcid (offA s.sourceLength s.blkidx.toNat)

/-- The state once both copies have been asked for. -/
def State.askBoth (s : State) : State := s.askA.request s.srcid (offB s.sourceLength s.blkidx.toNat)

/-- The two requests of a block use up two answers and stand in the log in their order (R69). -/
theorem askBoth_eq (s : State) : s.askBoth = { s with
    portAnswers := s.portAnswers.tail.tail
    portLog := s.portLog ++
      [⟨s.srcid, offA s.sourceLength s.blkidx.toNat⟩, ⟨s.srcid, offB s.sourceLength s.blkidx.toNat⟩] } := by
  simp [State.askBoth, State.askA, State.request]

/-- The state once both copies are in the buffers (R161). -/
def State.loaded (s : State) (ra rb : SpareRecord) : State :=
  { s with
    spa := ra, spb := rb, bres := .noVerdict
    portAnswers := s.portAnswers.tail.tail
    portLog := s.portLog ++
      [⟨s.srcid, offA s.sourceLength s.blkidx.toNat⟩, ⟨s.srcid, offB s.sourceLength s.blkidx.toNat⟩] }

theorem askBoth_setBuffers (s : State) (ra rb : SpareRecord) :
    (s.askBoth.setBuffers ra rb).setVerdict .noVerdict = s.loaded ra rb := by
  rw [askBoth_eq]; rfl

@[simp] theorem loaded_fatal (s : State) (ra rb : SpareRecord) : (s.loaded ra rb).fatal = s.fatal := rfl
@[simp] theorem loaded_portLog (s : State) (ra rb : SpareRecord) : (s.loaded ra rb).portLog = s.portLog ++
    [⟨s.srcid, offA s.sourceLength s.blkidx.toNat⟩, ⟨s.srcid, offB s.sourceLength s.blkidx.toNat⟩] := rfl
@[simp] theorem loaded_parseA (s : State) (ra rb : SpareRecord) (v : BitVec 1) :
    (s.loaded ra rb).parseA v = parse s.config.ecc ra v := rfl
@[simp] theorem loaded_parseB (s : State) (ra rb : SpareRecord) (v : BitVec 1) :
    (s.loaded ra rb).parseB v = parse s.config.ecc rb v := rfl

section Loadsp

variable {s : State} {ra rb : SpareRecord}

theorem loadsp_of_failedA (ha : s.portRead s.srcid (offA s.sourceLength s.blkidx.toNat) = .ioError) :
    loadsp s = .next (s.askA.raiseFatal .io .fatalIo) := by
  simp only [loadsp, ha, State.askA]

theorem loadsp_of_failedB (ha : s.portRead s.srcid (offA s.sourceLength s.blkidx.toNat) = .bytes ra)
    (hb : s.askA.portRead s.srcid (offB s.sourceLength s.blkidx.toNat) = .ioError) :
    loadsp s = .next (s.askBoth.raiseFatal .io .fatalIo) := by
  rw [State.askA] at hb
  simp only [loadsp, ha, hb, State.askA, State.askBoth]

theorem loadsp_of_bytes (ha : s.portRead s.srcid (offA s.sourceLength s.blkidx.toNat) = .bytes ra)
    (hb : s.askA.portRead s.srcid (offB s.sourceLength s.blkidx.toNat) = .bytes rb) :
    loadsp s = .next (s.loaded ra rb) := by
  rw [State.askA] at hb
  simp only [loadsp, ha, hb, ← askBoth_setBuffers, State.askA, State.askBoth]

/-- A faithful port loads the block's two records (R161). -/
theorem loadsp_of_records (hport : s.portFaithful)
    (ha : s.sources.record s.srcid (offA s.sourceLength s.blkidx.toNat) = some ra)
    (hb : s.sources.record s.srcid (offB s.sourceLength s.blkidx.toNat) = some rb) :
    loadsp s = .next (s.loaded ra rb) :=
  loadsp_of_bytes (portRead_of_record hport ha) (portRead_of_record (portFaithful_request hport _ _) hb)

end Loadsp

/-- `LOADSP` of an existing block is its procedure (R161). -/
theorem exec_loadsp_run {s : State} (hf : s.fatal = false) (hcur : s.blkidx.toNat < numBlocks s.sourceLength) :
    exec .loadsp s = loadsp (s.setCerr .ok) :=
  exec_run nofun hf nofun (decide_eq_false (Nat.not_le.mpr hcur))

/-- Settles O34: a faithful port serves both requests, and the two stand in the log one after the other. -/
theorem loadspFillsBuffers : Obligations.LoadspFillsBuffers := by
  intro s a b hf hcur hport ha hb
  have hload : loadsp (s.setCerr .ok) = .next ((s.setCerr .ok).loaded a b) :=
    loadsp_of_records hport ((Memory.record_eq_some_iff ..).mpr ha) ((Memory.record_eq_some_iff ..).mpr hb)
  rw [exec_loadsp_run hf hcur, hload]
  rfl

/-- Settles O35: the first read that fails ends `loadsp` at once. -/
theorem loadspIoFailure : Obligations.LoadspIoFailure := by
  intro s hf hcur
  rw [exec_loadsp_run hf hcur]
  refine ⟨fun hanswered hfail => ?copyA, fun hserved hbytes hanswered hfail => ?copyB⟩
  case copyA =>
    rw [loadsp_of_failedA (s := s.setCerr .ok) (portRead_of_failed (s := s.setCerr .ok) hanswered hfail)]
    rfl
  case copyB =>
    obtain ⟨ra, ha⟩ := portRead_of_served (s := s.setCerr .ok) hserved hbytes
    rw [loadsp_of_failedB ha (portRead_of_failed (s := (s.setCerr .ok).askA) hanswered hfail), askBoth_eq]
    rfl

end Sys2Proof.Machine

/-! One block of a scan (R165): `loadsp` and then `claim`, which is all that `BLKSCAN` does and all that a turn of the loop of
`SRCSCAN` does before it moves the cursor. -/

namespace Sys2Proof.Machine

/-- Load the block under the cursor and, unless that was fatal, claim for it. -/
def scanBlock (v : BitVec 1) (s : State) : Out := andThen (loadsp s) fun t => .next (claim v t)

theorem andThen_assoc (o : Out) (f g : State → Out) :
    andThen (andThen o f) g = andThen o fun s => andThen (f s) g := by
  cases o with
  | next s =>
    cases hf : s.fatal with
    | true => rw [andThen_fatal hf, andThen_fatal hf, andThen_fatal hf]
    | false => rw [andThen_run hf, andThen_run hf]
  | fault r => rfl
  | refused r => rfl

/-- What follows matters only where the first part returned without a fatal condition. -/
theorem andThen_congr {o : Out} {f g : State → Out} (h : ∀ u, o = .next u → u.fatal = false → f u = g u) :
    andThen o f = andThen o g := by
  cases o with
  | next s =>
    cases hf : s.fatal with
    | true => rw [andThen_fatal hf, andThen_fatal hf]
    | false => rw [andThen_run hf, andThen_run hf, h s rfl hf]
  | fault r => rfl
  | refused r => rfl

/-- A turn of the loop of `SRCSCAN` is one block and then the cursor (R168). -/
theorem scanBlocks_succ (v : BitVec 1) (n : Nat) (s : State) :
    scanBlocks v (n + 1) s = andThen (scanBlock v s) fun t => scanBlocks v n (t.setCursor (t.blkidx + 1)) :=
  (andThen_assoc ..).symm

/-- An accepted `BLKSCAN` is its block (R165). -/
theorem exec_blkscan_run {s : State} (hf : s.fatal = false) (hm : s.mapv = true)
    (hcur : s.blkidx.toNat < numBlocks s.sourceLength) : exec .blkscan s = scanBlock s.cfg (s.setCerr .ok) :=
  exec_run nofun hf (fun _ => hm) (decide_eq_false (Nat.not_le.mpr hcur))

theorem claim_mapv (v : BitVec 1) (s : State) : (claim v s).mapv = s.mapv := by
  rcases claim_cases v s with ⟨-, e⟩ | ⟨-, e⟩ | ⟨x, y, -, -, e⟩ | ⟨idx, -, e⟩ <;> rw [e]
  · rfl
  · rfl
  · rfl
  · rcases claimIndex_cases idx (s.withParses v) with ⟨-, e⟩ | ⟨-, p, -, e⟩ | ⟨-, -, e⟩ <;> rw [e]
    · rfl
    · rfl
    · exact setSlot_mapv _ _ _

/-- What the loading and the claiming of a block leave alone, of all that they read: only the slots of the map and the port's
answers are read and written. -/
structure ScanFrame (s t : State) : Prop where
  cfg : t.cfg = s.cfg
  nact : t.nact = s.nact
  srcid : t.srcid = s.srcid
  sourceLength : t.sourceLength = s.sourceLength
  cerr : t.cerr = s.cerr
  sources : t.sources = s.sources
  config : t.config = s.config
  mapv : t.mapv = s.mapv

section Frame

variable {s t u : State} {v : BitVec 1}

theorem ScanFrame.refl (s : State) : ScanFrame s s := ⟨rfl, rfl, rfl, rfl, rfl, rfl, rfl, rfl⟩

theorem ScanFrame.trans (h : ScanFrame s t) (h' : ScanFrame t u) : ScanFrame s u where
  cfg := h'.cfg.trans h.cfg
  nact := h'.nact.trans h.nact
  srcid := h'.srcid.trans h.srcid
  sourceLength := h'.sourceLength.trans h.sourceLength
  cerr := h'.cerr.trans h.cerr
  sources := h'.sources.trans h.sources
  config := h'.config.trans h.config
  mapv := h'.mapv.trans h.mapv

theorem ScanFrame.setCursor (h : ScanFrame s t) (i : BitVec 32) : ScanFrame s (t.setCursor i) := { h with }

theorem ScanFrame.of_footprint (h : Footprint .blkscan s t) (hc : t.cerr = s.cerr) (hm : t.mapv = s.mapv) :
    ScanFrame s t := by
  unfold Footprint at h
  refine ⟨?_, ?_, ?_, ?_, hc, ?_, ?_, hm⟩ <;> rw [h]
  rfl

theorem loadsp_mapv (h : loadsp s = .next t) : t.mapv = s.mapv := by
  rcases loadsp_next h with rfl | rfl | ⟨ra, rb, rfl⟩ <;> simp

theorem loadsp_frame (h : loadsp s = .next t) : ScanFrame s t :=
  .of_footprint (loadsp_footprint h).blkscan_of_loadsp (loadsp_cerr h) (loadsp_mapv h)

theorem claim_frame (v : BitVec 1) (s : State) : ScanFrame s (claim v s) :=
  have hload : Footprint .loadsp s s := rfl
  .of_footprint (hload.blkscan_of_loadsp_blkclaim (claim_footprint v s)) (claim_cerr v s) (claim_mapv v s)

/-- All that one block can do (R165): its loading fails at copy A or at copy B, or the claim is made from the two records. -/
theorem scanBlock_next (hf : s.fatal = false) (h : scanBlock v s = .next t) :
    t = s.askA.raiseFatal .io .fatalIo ∨ t = s.askBoth.raiseFatal .io .fatalIo ∨
    ∃ ra rb, t = claim v (s.loaded ra rb) := by
  rcases andThen_next h with ⟨hl, hfatal⟩ | ⟨u, hl, hrun, hc⟩
  · rcases loadsp_next hl with e | e | ⟨ra, rb, e⟩
    · exact .inl e
    · exact .inr (.inl e)
    · have hloaded : t = s.loaded ra rb := e.trans (askBoth_setBuffers s ra rb)
      rw [hloaded, loaded_fatal, hf] at hfatal
      cases hfatal
  · cases hc
    rcases loadsp_next hl with rfl | rfl | ⟨ra, rb, e⟩
    · cases hrun
    · cases hrun
    · exact .inr (.inr ⟨ra, rb, congrArg (claim v) (e.trans (askBoth_setBuffers s ra rb))⟩)

theorem scanBlock_frame (h : scanBlock v s = .next t) : ScanFrame s t := by
  rcases andThen_next h with ⟨hl, -⟩ | ⟨u, hl, -, hc⟩
  · exact loadsp_frame hl
  · cases hc; exact (loadsp_frame hl).trans (claim_frame v u)

/-- A block is done with the cursor on it (R165, R168). -/
theorem scanBlock_blkidx (h : scanBlock v s = .next t) : t.blkidx = s.blkidx := by
  have hfoot : Footprint .blkscan s t := by
    rcases andThen_next h with ⟨hl, -⟩ | ⟨u, hl, -, hc⟩
    · exact (loadsp_footprint hl).blkscan_of_loadsp
    · cases hc; exact (loadsp_footprint hl).blkscan_of_loadsp_blkclaim (claim_footprint v u)
  unfold Footprint at hfoot
  rw [hfoot]

/-- A faithful port brings every block to its claim. -/
theorem scanBlock_of_records {ra rb : SpareRecord} (hf : s.fatal = false) (hport : s.portFaithful)
    (ha : s.sources.record s.srcid (offA s.sourceLength s.blkidx.toNat) = some ra)
    (hb : s.sources.record s.srcid (offB s.sourceLength s.blkidx.toNat) = some rb) :
    scanBlock v s = .next (claim v (s.loaded ra rb)) := by
  rw [scanBlock, loadsp_of_records hport ha hb, andThen_run (s := s.loaded ra rb) hf]

theorem setCerr_of_cerr (h : s.cerr = .ok) : s.setCerr .ok = s := by rw [State.setCerr, ← h]

end Frame

/-- Settles O42: both records come, and step 7 of their claim finds the slot free. -/
theorem blkscanClaimsBlock : Obligations.BlkscanClaimsBlock := by
  intro s ra rb idx hf hm hcur hport ha hb h hlt hfree
  have hscan : scanBlock s.cfg (s.setCerr .ok) = .next (claim s.cfg ((s.setCerr .ok).loaded ra rb)) :=
    scanBlock_of_records hf hport ha hb
  have hclaim : claim s.cfg ((s.setCerr .ok).loaded ra rb) = claimIndex idx (s.loaded ra rb).parsed := by
    refine (claim_of_goOn ?_).trans (congrArg (claimIndex idx) (withParses_setCerr (s.loaded ra rb)))
    rw [loaded_parseA, loaded_parseB]
    exact reconcile_of_resolvesTo h
  have hexec : exec .blkscan s =
      .next (((s.loaded ra rb).parsed.setSlot idx.toNat ⟨s.srcid, s.blkidx⟩).setVerdict .claimed) := by
    rw [exec_blkscan_run hf hm hcur, hscan, hclaim, claimIndex_of_free (s := (s.loaded ra rb).parsed) hlt hfree]
    rfl
  have hslot (j : Nat) := slotAt_setSlot (s := s) hm idx.toNat j ⟨s.srcid, s.blkidx⟩
  exact ⟨_, hexec, rfl, (hslot _).trans (if_pos rfl), fun j hj => (hslot j).trans (if_neg hj)⟩

/-- Settles O43: `BLKCLAIM` runs in the same mode and finds the tests of R93 as `BLKSCAN` did. -/
theorem blkscanIsLoadThenClaim : Obligations.BlkscanIsLoadThenClaim := by
  intro s u hf hm hcur hload
  rw [exec_loadsp_run hf hcur] at hload
  have hframe := loadsp_frame hload
  rw [exec_blkscan_run hf hm hcur, scanBlock, hload]
  refine ⟨fun hfatal => andThen_fatal hfatal, fun hrun => ?_⟩
  rw [andThen_run hrun, exec_blkclaim_run hrun (hframe.mapv.trans hm), setCerr_of_cerr hframe.cerr, hframe.cfg,
    setCerr_cfg]

end Sys2Proof.Machine

/-! `SRCSCAN` (R168) as the host's loop of `BLKSCAN`. -/

namespace Sys2Proof.Machine

/-- The state in which an accepted `SRCSCAN` enters its loop. -/
def State.scanStart (s : State) : State := ((s.setCerr .ok).setCursor 0#32).setVerdict .noVerdict

/-- An accepted `SRCSCAN` is its loop over the blocks of the source (R168). -/
theorem exec_srcscan_run {s : State} (hf : s.fatal = false) (hm : s.mapv = true) :
    exec .srcscan s = scanBlocks s.cfg (numBlocks s.sourceLength) s.scanStart :=
  exec_run nofun hf (fun _ => hm) rfl

/-- The state in which a scan of `n` blocks that reached `s` ends: the cursor one past the last block, unless a fatal
condition left it on the offender (R168). -/
def State.scanEnd (n : Nat) (s : State) : State := if s.fatal = true then s else s.setCursor (BitVec.ofNat 32 n)

theorem scanEnd_fatal {n : Nat} {s : State} (h : s.fatal = true) : s.scanEnd n = s := if_pos h

theorem scanEnd_run {n : Nat} {s : State} (h : s.fatal = false) : s.scanEnd n = s.setCursor (BitVec.ofNat 32 n) :=
  if_neg (by simp [h])

/-- An outcome with its scan ended. -/
theorem mapNext_scanEnd (n : Nat) (o : Out) :
    mapNext (State.scanEnd n) o =
      match o with
      | .next t => .next (if t.fatal = true then t else { t with blkidx := BitVec.ofNat 32 n })
      | .fault r => .fault r
      | .refused r => .refused r := by
  cases o <;> rfl

/-- An update that leaves a fatal end alone may wait for the end of a sequence. -/
theorem mapNext_andThen {f : State → State} (hf : ∀ s, s.fatal = true → f s = s) (o : Out) (g : State → Out) :
    mapNext f (andThen o g) = andThen o fun s => mapNext f (g s) := by
  cases o with
  | next s =>
    cases hs : s.fatal with
    | true => rw [andThen_fatal hs, andThen_fatal hs, mapNext, hf s hs]
    | false => rw [andThen_run hs, andThen_run hs]
  | fault r => rfl
  | refused r => rfl

theorem blkscanEach_cons (i : Nat) (rest : List Nat) (s : State) :
    blkscanEach (i :: rest) s = andThen (exec .blkscan (s.setCursor (BitVec.ofNat 32 i))) (blkscanEach rest) := by
  rw [blkscanEach]
  cases exec .blkscan (s.setCursor (BitVec.ofNat 32 i)) <;> rfl

/-- The number of a block fits the cursor, and so does the number of blocks (R22, R65). -/
theorem cursor_toNat {s : State} {i : Nat} (h : i ≤ numBlocks s.sourceLength) : (BitVec.ofNat 32 i).toNat = i :=
  (BitVec.toNat_ofNat ..).trans (Nat.mod_eq_of_lt (h.trans_lt (numBlocks_lt (sourceLength_lt s))))

/-- The loop of `SRCSCAN` from block `i` on is the host's loop of `BLKSCAN` over the same blocks. -/
theorem scanBlocks_eq_blkscanEach {n i : Nat} {s : State} (hf : s.fatal = false) (hm : s.mapv = true) (hc : s.cerr = .ok)
    (hn : i + n = numBlocks s.sourceLength) :
    scanBlocks s.cfg n (s.setCursor (BitVec.ofNat 32 i)) =
      mapNext (State.scanEnd (numBlocks s.sourceLength)) (blkscanEach (List.range' i n) s) := by
  induction n generalizing i s with
  | zero =>
    obtain rfl : i = numBlocks s.sourceLength := hn
    rw [List.range'_zero, blkscanEach, mapNext, scanEnd_run hf, scanBlocks]
  | succ n ih =>
    have hcur : (BitVec.ofNat 32 i).toNat < numBlocks s.sourceLength := by rw [cursor_toNat (s := s)] <;> omega
    rw [List.range'_succ, blkscanEach_cons, mapNext_andThen fun _ => scanEnd_fatal, scanBlocks_succ,
      exec_blkscan_run (s := s.setCursor (BitVec.ofNat 32 i)) hf hm hcur,
      setCerr_of_cerr (s := s.setCursor (BitVec.ofNat 32 i)) hc]
    refine andThen_congr fun u hu hrun => ?_
    have hframe : ScanFrame s u := ((ScanFrame.refl s).setCursor _).trans (scanBlock_frame hu)
    have hnext : u.blkidx + 1 = BitVec.ofNat 32 (i + 1) := by
      rw [scanBlock_blkidx hu, setCursor_blkidx, BitVec.ofNat_add]; rfl
    have hturn := ih (i := i + 1) hrun (hframe.mapv.trans hm) (hframe.cerr.trans hc) (by rw [hframe.sourceLength]; omega)
    rwa [hframe.cfg, hframe.sourceLength, ← hnext] at hturn

/-- Settles O44: the loop starts at block 0, where the cursor stands. -/
theorem srcscanIsIteratedBlkscan : Obligations.SrcscanIsIteratedBlkscan := by
  intro s hf hm
  have hloop : scanBlocks s.cfg (numBlocks s.sourceLength) s.scanStart =
      mapNext (State.scanEnd (numBlocks s.sourceLength))
        (blkscanEach (List.range' 0 (numBlocks s.sourceLength)) s.scanStart) :=
    scanBlocks_eq_blkscanEach (s := s.scanStart) hf hm rfl (Nat.zero_add _)
  rw [exec_srcscan_run hf hm, hloop, ← List.range_eq_range']
  exact mapNext_scanEnd _ _

end Sys2Proof.Machine

/-! Where `SRCSCAN` ends (R168, R231): an induction over the turns of its loop, first with all that a turn can do to the slots
and the requests. -/

namespace Sys2Proof.Machine

/-- The induction of a scan: `Inv i` holds when the loop reaches block `i` with no fatal condition, `Stop i` when block `i`
raised one. -/
theorem scanBlocks_induction {v : BitVec 1} {N : Nat} {Inv Stop : Nat → State → Prop}
    (hrun : ∀ i u t, i < N → Inv i u → scanBlock v u = .next t → t.fatal = false →
      Inv (i + 1) (t.setCursor (t.blkidx + 1)))
    (hstop : ∀ i u t, i < N → Inv i u → scanBlock v u = .next t → t.fatal = true → Stop i t)
    {n i : Nat} {s t : State} (hn : i + n = N) (hs : Inv i s) (h : scanBlocks v n s = .next t) :
    Inv N t ∨ ∃ j, j < N ∧ t.fatal = true ∧ Stop j t := by
  induction n generalizing i s with
  | zero => cases h; exact .inl (hn ▸ hs)
  | succ n ih =>
    have hi : i < N := by omega
    rw [scanBlocks_succ] at h
    rcases andThen_next h with ⟨hturn, hfatal⟩ | ⟨u, hturn, hf, h⟩
    · exact .inr ⟨i, hi, hfatal, hstop i s t hi hs hturn hfatal⟩
    · exact ih (by omega) (hrun i s u hi hs hturn hf) h

/-- Block `i + 1` follows block `i`. -/
theorem cursor_succ {i : Nat} {c : BitVec 32} (h : c = BitVec.ofNat 32 i) : c + 1 = BitVec.ofNat 32 (i + 1) := by
  rw [h, BitVec.ofNat_add]; rfl

section Turn

variable {s t : State} {v : BitVec 1}

/-- A claim without a fatal end writes at most a free slot, for the block under the cursor; a fatal one writes none (R163). -/
theorem claim_slots (hf : s.fatal = false) (hm : s.mapv = true) (v : BitVec 1) (k : Nat) :
    (claim v s).slotAt k = s.slotAt k ∨
    ((claim v s).fatal = false ∧ s.slotAt k = none ∧ (claim v s).slotAt k = some ⟨s.srcid, s.blkidx⟩) := by
  rcases claim_cases v s with ⟨-, e⟩ | ⟨-, e⟩ | ⟨x, y, -, -, e⟩ | ⟨idx, -, e⟩ <;> rw [e]
  · exact .inl rfl
  · exact .inl rfl
  · exact .inl rfl
  · rcases claimIndex_cases idx (s.withParses v) with ⟨-, e⟩ | ⟨-, p, -, e⟩ | ⟨-, hfree, e⟩ <;> rw [e]
    · exact .inl rfl
    · exact .inl rfl
    · rw [setVerdict_slotAt, slotAt_setSlot (s := s.withParses v) hm]
      by_cases hk : k = idx.toNat
      · subst hk
        exact .inr ⟨hf, hfree, if_pos rfl⟩
      · exact .inl (if_neg hk)

/-- The requests for the two records of block `i` (R66, R69). -/
def State.recordRequests (s : State) (i : Nat) : List PortRequest :=
  [⟨s.srcid, offA s.sourceLength i⟩, ⟨s.srcid, offB s.sourceLength i⟩]

/-- The requests for the records of the blocks before block `i`. -/
def State.scanRequests (s : State) (i : Nat) : List PortRequest := (List.range i).flatMap s.recordRequests

theorem scanRequests_succ (s : State) (i : Nat) : s.scanRequests (i + 1) = s.scanRequests i ++ s.recordRequests i := by
  rw [State.scanRequests, List.range_succ, List.flatMap_append, List.flatMap_singleton]; rfl

theorem mem_scanRequests {q : PortRequest} {i : Nat} :
    q ∈ s.scanRequests i ↔ ∃ j, j < i ∧ q ∈ s.recordRequests j := by
  simp [State.scanRequests]

theorem claim_portLog (v : BitVec 1) (s : State) : (claim v s).portLog = s.portLog := by
  have hfoot := claim_footprint v s
  unfold Footprint at hfoot
  rw [hfoot]

/-- One block asks for both its records, or for copy A alone, where that ends the scan (R69, R226). -/
theorem scanBlock_portLog (hf : s.fatal = false) (h : scanBlock v s = .next t) :
    (t.fatal = true ∧ t.portLog = s.portLog ++ [⟨s.srcid, offA s.sourceLength s.blkidx.toNat⟩]) ∨
    t.portLog = s.portLog ++ s.recordRequests s.blkidx.toNat := by
  rcases scanBlock_next hf h with rfl | rfl | ⟨ra, rb, rfl⟩
  · exact .inl ⟨rfl, rfl⟩
  · rw [raiseFatal_portLog, askBoth_eq]; exact .inr rfl
  · rw [claim_portLog, loaded_portLog]; exact .inr rfl

theorem scanBlock_slots (hf : s.fatal = false) (hm : s.mapv = true) (h : scanBlock v s = .next t) (k : Nat) :
    t.slotAt k = s.slotAt k ∨
    (t.fatal = false ∧ s.slotAt k = none ∧ t.slotAt k = some ⟨s.srcid, s.blkidx⟩) := by
  rcases scanBlock_next hf h with rfl | rfl | ⟨ra, rb, rfl⟩
  · exact .inl rfl
  · exact .inl rfl
  · exact claim_slots (s := s.loaded ra rb) hf hm v k

end Turn

/-- Between `s` and `u` a scan has done the blocks before `i` and, of block `i`, has made the requests `part`. -/
structure ScanProgress (s : State) (i : Nat) (part : List PortRequest) (u : State) : Prop where
  frame : ScanFrame s u
  cursor : u.blkidx = BitVec.ofNat 32 i
  slots : ∀ k, u.slotAt k = s.slotAt k ∨
    (s.slotAt k = none ∧ ∃ p, u.slotAt k = some p ∧ p.src = s.srcid ∧ p.blk.toNat < i)
  log : u.portLog = s.portLog ++ (s.scanRequests i ++ part)

/-- The scan of `s` has been ended by block `i`, which had been asked for. -/
def ScanStopped (s : State) (i : Nat) (u : State) : Prop :=
  ∃ part, ScanProgress s i part u ∧ ⟨s.srcid, offA s.sourceLength i⟩ ∈ part ∧ ∀ q ∈ part, q ∈ s.recordRequests i

section Progress

variable {s u t : State} {i : Nat} {part : List PortRequest} {v : BitVec 1}

theorem ScanProgress.start (hcur : s.blkidx = 0#32) : ScanProgress s 0 [] s where
  frame := .refl s
  cursor := hcur
  slots _ := .inl rfl
  log := (List.append_nil _).symm

theorem ScanProgress.cursor_eq (h : ScanProgress s i part u) (hi : i ≤ numBlocks s.sourceLength) : u.blkidx.toNat = i := by
  rw [h.cursor, cursor_toNat hi]

/-- The requests of the block under the cursor are those that `s` foretells. -/
theorem ScanProgress.recordRequests_eq (h : ScanProgress s i part u) (hi : i ≤ numBlocks s.sourceLength) :
    u.recordRequests u.blkidx.toNat = s.recordRequests i := by
  rw [State.recordRequests, h.cursor_eq hi, h.frame.srcid, h.frame.sourceLength, State.recordRequests]

/-- A turn that raises no fatal condition goes on to the next block. -/
theorem ScanProgress.next (h : ScanProgress s i [] u) (hi : i < numBlocks s.sourceLength) (hm : s.mapv = true)
    (hf : u.fatal = false) (hturn : scanBlock v u = .next t) (hrun : t.fatal = false) :
    ScanProgress s (i + 1) [] (t.setCursor (t.blkidx + 1)) where
  frame := (h.frame.trans (scanBlock_frame hturn)).setCursor _
  cursor := cursor_succ ((scanBlock_blkidx hturn).trans h.cursor)
  slots k := by
    rw [setCursor_slotAt]
    rcases scanBlock_slots hf (h.frame.mapv.trans hm) hturn k with e | ⟨-, hfree, e⟩
    · rw [e]
      exact (h.slots k).imp_right fun ⟨hs, p, hp, hsrc, hblk⟩ => ⟨hs, p, hp, hsrc, hblk.trans (Nat.lt_succ_self i)⟩
    · have hs : s.slotAt k = none := by
        rcases h.slots k with e' | ⟨hs, -⟩
        · rw [← e', hfree]
        · exact hs
      exact .inr ⟨hs, _, e, h.frame.srcid, (h.cursor_eq hi.le).trans_lt (Nat.lt_succ_self i)⟩
  log := by
    rcases scanBlock_portLog hf hturn with ⟨hfatal, -⟩ | e
    · rw [hrun] at hfatal; cases hfatal
    · rw [setCursor_portLog, e, h.recordRequests_eq hi.le, h.log, scanRequests_succ]
      simp only [List.append_nil, List.append_assoc]

/-- A turn that raises a fatal condition leaves the cursor and the slots as it found them (R231). -/
theorem ScanProgress.stop (h : ScanProgress s i [] u) (hi : i < numBlocks s.sourceLength) (hm : s.mapv = true)
    (hf : u.fatal = false) (hturn : scanBlock v u = .next t) (hfatal : t.fatal = true) : ScanStopped s i t := by
  have hprogress {part : List PortRequest} (e : t.portLog = u.portLog ++ part) : ScanProgress s i part t :=
    { frame := h.frame.trans (scanBlock_frame hturn)
      cursor := (scanBlock_blkidx hturn).trans h.cursor
      slots := fun k => by
        rcases scanBlock_slots hf (h.frame.mapv.trans hm) hturn k with e | ⟨hrun, -⟩
        · rw [e]; exact h.slots k
        · rw [hrun] at hfatal; cases hfatal
      log := by rw [e, h.log, List.append_nil, List.append_assoc] }
  rcases scanBlock_portLog hf hturn with ⟨-, e⟩ | e
  · rw [h.cursor_eq hi.le, h.frame.srcid, h.frame.sourceLength] at e
    exact ⟨_, hprogress e, List.mem_singleton_self _, fun q hq => List.mem_singleton.mp hq ▸ List.mem_cons_self⟩
  · rw [h.recordRequests_eq hi.le] at e
    exact ⟨_, hprogress e, List.mem_cons_self, fun q hq => hq⟩

/-- A scan of the whole source ends past its last block, or on a block that stopped it. -/
theorem scanBlocks_ends (hf : s.fatal = false) (hm : s.mapv = true) (hcur : s.blkidx = 0#32)
    (h : scanBlocks v (numBlocks s.sourceLength) s = .next t) :
    (ScanProgress s (numBlocks s.sourceLength) [] t ∧ t.fatal = false) ∨
    ∃ i, i < numBlocks s.sourceLength ∧ t.fatal = true ∧ ScanStopped s i t :=
  scanBlocks_induction (Inv := fun i u => ScanProgress s i [] u ∧ u.fatal = false) (Stop := ScanStopped s)
    (fun _ _ _ hi ⟨hp, hu⟩ hturn hrun => ⟨hp.next hi hm hu hturn hrun, hrun⟩)
    (fun _ _ _ hi ⟨hp, hu⟩ hturn hfatal => hp.stop hi hm hu hturn hfatal)
    (Nat.zero_add _) ⟨.start hcur, hf⟩ h

/-- The requests of a scan that stands at block `i` are for records of the blocks up to it. -/
theorem scanRequests_only (hi : i ≤ numBlocks s.sourceLength)
    (hpart : ∀ q ∈ part, i < numBlocks s.sourceLength ∧ q ∈ s.recordRequests i) {q : PortRequest}
    (hq : q ∈ s.scanRequests i ++ part) :
    q.src = s.srcid ∧ ∃ j, j ≤ i ∧ j < numBlocks s.sourceLength ∧
      (q.off = offA s.sourceLength j ∨ q.off = offB s.sourceLength j) := by
  obtain ⟨j, hji, hj, hmem⟩ : ∃ j, j ≤ i ∧ j < numBlocks s.sourceLength ∧ q ∈ s.recordRequests j := by
    rcases List.mem_append.mp hq with hq | hq
    · obtain ⟨j, hj, hmem⟩ := mem_scanRequests.mp hq
      exact ⟨j, hj.le, by omega, hmem⟩
    · exact ⟨i, le_rfl, hpart q hq⟩
  simp only [State.recordRequests, List.mem_cons, List.not_mem_nil, or_false] at hmem
  rcases hmem with rfl | rfl
  · exact ⟨rfl, j, hji, hj, .inl rfl⟩
  · exact ⟨rfl, j, hji, hj, .inr rfl⟩

/-- Both records of every block before block `i` are among the requests of a scan that stands at it. -/
theorem scanRequests_all (s : State) (part : List PortRequest) {i j : Nat} (hj : j < i) :
    ⟨s.srcid, offA s.sourceLength j⟩ ∈ s.scanRequests i ++ part ∧
      ⟨s.srcid, offB s.sourceLength j⟩ ∈ s.scanRequests i ++ part := by
  refine ⟨List.mem_append_left _ (mem_scanRequests.mpr ⟨j, hj, ?_⟩),
    List.mem_append_left _ (mem_scanRequests.mpr ⟨j, hj, ?_⟩)⟩ <;> simp [State.recordRequests]

end Progress

/-- Settles O46: the loop ends past the last block or on the one that stopped it, and its progress says what it has claimed
and asked for. -/
theorem srcscanEndsPrecisely : Obligations.SrcscanEndsPrecisely := by
  intro s t hf hm h
  rw [exec_srcscan_run hf hm] at h
  rcases scanBlocks_ends (s := s.scanStart) hf hm rfl h with ⟨hp, hrun⟩ | ⟨i, hi, hfatal, part, hp, hA, hpart⟩
  · have hcur := hp.cursor_eq le_rfl
    refine ⟨fun hfatal => ?_, fun _ => hcur, ?_, _, hp.log, fun q hq => ?_, fun hfatal => ?_, fun j hj => ?_⟩
    · rw [hrun] at hfatal; cases hfatal
    · rw [hcur]; exact hp.slots
    · rw [hcur]; exact scanRequests_only le_rfl (fun _ hq => absurd hq List.not_mem_nil) hq
    · rw [hrun] at hfatal; cases hfatal
    · rw [hcur] at hj; exact scanRequests_all s.scanStart [] hj
  · have hcur := hp.cursor_eq hi.le
    refine ⟨fun _ => hcur.trans_lt hi, fun hrun => ?_, ?_, _, hp.log, fun q hq => ?_, fun _ => ?_, fun j hj => ?_⟩
    · rw [hrun] at hfatal; cases hfatal
    · rw [hcur]; exact hp.slots
    · rw [hcur]; exact scanRequests_only hi.le (fun q hq => ⟨hi, hpart q hq⟩) hq
    · rw [hcur]; exact List.mem_append_right _ hA
    · rw [hcur] at hj; exact scanRequests_all s.scanStart part hj

end Sys2Proof.Machine

/-! The map that `SRCSCAN` builds from a consistent source (R168, R169): what a claim does for its verdict, carried through the
loop. -/

namespace Sys2Proof.Machine

/-- The verdict `r` claims slot `k` of a map of `n` slots. -/
def Resolution.claims (r : Resolution) (n k : Nat) : Prop := ∃ idx, r = .goOn idx ∧ idx.toNat = k ∧ k < n

/-- Block `i` of the current source claims slot `k`. -/
def State.blockClaims (s : State) (i k : Nat) : Prop :=
  ∃ r, s.blockVerdict i = some r ∧ r.claims s.nact.toNat k

/-- `t` is `s` after a block with the verdict `r`: no fatal condition, and the slot that `r` claims, if any, given to the
block under the cursor. -/
structure Claimed (r : Resolution) (s t : State) : Prop where
  running : t.fatal = false
  slot : ∀ k, r.claims s.nact.toNat k → t.slotAt k = some ⟨s.srcid, s.blkidx⟩
  others : ∀ k, ¬ r.claims s.nact.toNat k → t.slotAt k = s.slotAt k

section Claimed

variable {s t : State} {r : Resolution} {v : BitVec 1}

theorem Claimed.of_slots_eq (hf : t.fatal = false) (hslots : ∀ k, t.slotAt k = s.slotAt k)
    (hr : ∀ k, ¬ r.claims s.nact.toNat k) : Claimed r s t :=
  ⟨hf, fun k hk => absurd hk (hr k), fun k _ => hslots k⟩

/-- Steps 6 and 7 drop the index, or claim its slot where that is free (R163). -/
theorem claimIndex_claimed {idx : BitVec 16} (hf : s.fatal = false) (hm : s.mapv = true)
    (hfree : ∀ k, (Resolution.goOn idx).claims s.nact.toNat k → s.slotAt k = none) :
    Claimed (.goOn idx) s (claimIndex idx s) := by
  rcases claimIndex_cases idx s with ⟨hrange, e⟩ | ⟨hlt, p, hp, -⟩ | ⟨hlt, -, e⟩
  · rw [e]
    refine .of_slots_eq hf (fun _ => rfl) fun k ⟨idx', hidx, hk, hlt⟩ => ?_
    cases hidx
    omega
  · rw [hfree _ ⟨idx, rfl, rfl, hlt⟩] at hp
    cases hp
  · have hslot (k : Nat) := slotAt_setSlot hm idx.toNat k ⟨s.srcid, s.blkidx⟩
    rw [e]
    refine ⟨hf, fun k ⟨idx', hidx, hk, _⟩ => ?_, fun k hk => ?_⟩
    · cases hidx
      exact (hslot k).trans (if_pos hk.symm)
    · exact (hslot k).trans (if_neg fun (h : k = idx.toNat) => hk ⟨idx, rfl, h.symm, h.trans_lt hlt⟩)

/-- A claim from copies that do not disagree, for a slot that is free, does what its verdict says (R162, R163). -/
theorem claim_claimed (hf : s.fatal = false) (hm : s.mapv = true) (hr : reconcile (s.parseA v) (s.parseB v) = r)
    (hne : ∀ x y, r ≠ .mismatch x y) (hfree : ∀ k, r.claims s.nact.toNat k → s.slotAt k = none) :
    Claimed r s (claim v s) := by
  have hskip (h : ∀ idx, r ≠ .goOn idx) (k : Nat) : ¬ r.claims s.nact.toNat k := fun ⟨idx, e, _⟩ => h idx e
  cases r with
  | skipBlank => rw [claim_of_skipBlank hr]; exact .of_slots_eq hf (fun _ => rfl) (hskip nofun)
  | skipInvalid => rw [claim_of_skipInvalid hr]; exact .of_slots_eq hf (fun _ => rfl) (hskip nofun)
  | mismatch x y => exact absurd rfl (hne x y)
  | goOn idx =>
    have h := claimIndex_claimed (s := s.withParses v) hf hm hfree
    rw [claim_of_goOn hr]
    exact ⟨h.running, h.slot, h.others⟩

/-- A verdict comes from two records that the port serves. -/
theorem blockVerdict_eq_some {i : Nat} (h : s.blockVerdict i = some r) :
    ∃ ra rb, s.sources.record s.srcid (offA s.sourceLength i) = some ra ∧
      s.sources.record s.srcid (offB s.sourceLength i) = some rb ∧
      reconcile (parse s.config.ecc ra s.cfg) (parse s.config.ecc rb s.cfg) = r := by
  unfold State.blockVerdict at h
  split at h
  next ra rb ha hb => cases h; exact ⟨ra, rb, ha, hb, rfl⟩
  next => cases h

theorem claim_portFaithful (h : s.portFaithful) (v : BitVec 1) : (claim v s).portFaithful := by
  have hfoot := claim_footprint v s
  unfold Footprint at hfoot
  rw [hfoot]
  exact h

theorem portAnswersAll_of_portFaithful (h : s.portFaithful) : s.portAnswersAll :=
  fun hs => nomatch h _ hs

end Claimed

/-- Between `s` and `u` a scan has put every block before `i` that claims a slot in that slot, and has written no other. -/
structure ScanBuilt (s : State) (i : Nat) (u : State) : Prop where
  frame : ScanFrame s u
  cursor : u.blkidx = BitVec.ofNat 32 i
  running : u.fatal = false
  faithful : u.portFaithful
  built : ∀ j k, j < i → s.blockClaims j k → u.slotAt k = some ⟨s.srcid, BitVec.ofNat 32 j⟩
  others : ∀ k, (∀ j, j < i → ¬ s.blockClaims j k) → u.slotAt k = s.slotAt k

/-- What R168 and R169 ask of a source for its scan to complete: every block's copies are served and agree, and no block
claims a taken slot or that of another block. -/
structure Consistent (s : State) : Prop where
  mapv : s.mapv = true
  verdicts : ∀ i, i < numBlocks s.sourceLength → ∃ r, s.blockVerdict i = some r ∧ ∀ x y, r ≠ .mismatch x y
  free : ∀ i k, i < numBlocks s.sourceLength → s.blockClaims i k → s.slotAt k = none
  distinct : ∀ i j k, i < j → j < numBlocks s.sourceLength → s.blockClaims i k → ¬ s.blockClaims j k

section Built

variable {s u t : State} {i : Nat}

/-- The turn of a block of a consistent source does what its verdict says. -/
theorem ScanBuilt.turn (hs : Consistent s) (h : ScanBuilt s i u) (hi : i < numBlocks s.sourceLength) :
    ∃ r t, s.blockVerdict i = some r ∧ scanBlock s.cfg u = .next t ∧ Claimed r u t ∧ t.portFaithful := by
  obtain ⟨r, hr, hne⟩ := hs.verdicts i hi
  obtain ⟨ra, rb, ha, hb, hrec⟩ := blockVerdict_eq_some hr
  have hcur : u.blkidx.toNat = i := by rw [h.cursor, cursor_toNat hi.le]
  rw [← h.frame.sources, ← h.frame.srcid, ← h.frame.sourceLength, ← hcur] at ha hb
  rw [← h.frame.config] at hrec
  have hport : (u.loaded ra rb).portFaithful := fun a ha => h.faithful a (List.mem_of_mem_tail (List.mem_of_mem_tail ha))
  have hfree (k : Nat) (hk : r.claims u.nact.toNat k) : u.slotAt k = none := by
    rw [h.frame.nact] at hk
    have hclaims : s.blockClaims i k := ⟨r, hr, hk⟩
    rw [h.others k fun j hj hjk => hs.distinct j i k hj hi hjk hclaims]
    exact hs.free i k hi hclaims
  have hclaimed := claim_claimed (s := u.loaded ra rb) (v := s.cfg) h.running (h.frame.mapv.trans hs.mapv)
    (by rw [loaded_parseA, loaded_parseB, hrec]) hne hfree
  exact ⟨r, _, hr, scanBlock_of_records h.running h.faithful ha hb,
    ⟨hclaimed.running, hclaimed.slot, hclaimed.others⟩, claim_portFaithful hport _⟩

theorem ScanBuilt.next (hs : Consistent s) (h : ScanBuilt s i u) (hi : i < numBlocks s.sourceLength)
    (hturn : scanBlock s.cfg u = .next t) : t.fatal = false ∧ ScanBuilt s (i + 1) (t.setCursor (t.blkidx + 1)) := by
  obtain ⟨r, t', hr, e, hclaimed, hport⟩ := h.turn hs hi
  obtain rfl : t' = t := by rw [hturn] at e; cases e; rfl
  have hclaims (k : Nat) : s.blockClaims i k ↔ r.claims u.nact.toNat k := by
    rw [h.frame.nact, State.blockClaims, hr]
    simp only [Option.some.injEq, exists_eq_left']
  refine ⟨hclaimed.running, ?_⟩
  exact {
    frame := (h.frame.trans (scanBlock_frame hturn)).setCursor _
    cursor := cursor_succ ((scanBlock_blkidx hturn).trans h.cursor)
    running := hclaimed.running
    faithful := hport
    built := fun j k hj hjk => by
      rw [setCursor_slotAt]
      rcases Nat.lt_succ_iff_lt_or_eq.mp hj with hj | rfl
      · rw [hclaimed.others k fun hk => hs.distinct j i k hj hi hjk ((hclaims k).mpr hk)]
        exact h.built j k hj hjk
      · rw [hclaimed.slot k ((hclaims k).mp hjk), h.frame.srcid, h.cursor]
    others := fun k hk => by
      rw [setCursor_slotAt, hclaimed.others k fun hr => hk i (Nat.lt_succ_self i) ((hclaims k).mpr hr)]
      exact h.others k fun j hj => hk j (hj.trans (Nat.lt_succ_self i)) }

/-- The scan of a consistent source ends past its last block with its part of the map built. -/
theorem scanBlocks_builds (hs : Consistent s) (hf : s.fatal = false) (hport : s.portFaithful) (hcur : s.blkidx = 0#32)
    (h : scanBlocks s.cfg (numBlocks s.sourceLength) s = .next t) : ScanBuilt s (numBlocks s.sourceLength) t := by
  have hstart : ScanBuilt s 0 s := ⟨.refl s, hcur, hf, hport, nofun, fun _ _ => rfl⟩
  have hend := scanBlocks_induction (Inv := ScanBuilt s) (Stop := fun _ _ => False)
    (fun _ _ _ hi hb hturn _ => (hb.next hs hi hturn).2)
    (fun _ _ _ hi hb hturn hfatal => by rw [(hb.next hs hi hturn).1] at hfatal; cases hfatal)
    (Nat.zero_add _) hstart h
  exact hend.resolve_right fun ⟨_, _, _, hstop⟩ => hstop

end Built

/-- The claim of a block, in the words of O45. -/
theorem blockClaims_iff {s : State} {i k : Nat} :
    s.blockClaims i k ↔ ∃ idx, s.blockVerdict i = some (.goOn idx) ∧ idx.toNat = k ∧ idx.toNat < s.nact.toNat := by
  constructor
  · rintro ⟨r, hr, idx, rfl, rfl, hlt⟩
    exact ⟨idx, hr, rfl, hlt⟩
  · rintro ⟨idx, hr, rfl, hlt⟩
    exact ⟨_, hr, idx, rfl, rfl, hlt⟩

/-- Settles O45: the premises make the source consistent, and a faithful port lets the command return. -/
theorem srcscanBuildsMap : Obligations.SrcscanBuildsMap := by
  intro s hf hm hport hverdicts hfree hdistinct
  have hs : Consistent s.scanStart := {
    mapv := hm
    verdicts := hverdicts
    free := fun i k hi hk => by
      obtain ⟨idx, hr, rfl, hlt⟩ := blockClaims_iff.mp hk
      exact hfree i idx hi hr hlt
    distinct := fun i j k hij hj hik hjk => by
      obtain ⟨idx, hr, rfl, hlt⟩ := blockClaims_iff.mp hik
      obtain ⟨idx', hr', hidx, -⟩ := blockClaims_iff.mp hjk
      obtain rfl := BitVec.eq_of_toNat_eq hidx
      exact absurd hlt (Nat.not_lt.mpr (hdistinct i j idx' hij hj hr hr')) }
  obtain ⟨t, hexec, -⟩ := exec_returns .srcscan (portAnswersAll_of_portFaithful hport)
  have hscan := hexec
  rw [exec_srcscan_run hf hm] at hscan
  have hb := scanBlocks_builds hs hf hport rfl hscan
  refine ⟨t, hexec, hb.running, hb.frame.cerr, ?cursor, fun i idx hi hr hlt => ?built, fun k hk => ?others⟩
  case cursor => rw [hb.cursor]; exact cursor_toNat (s := s) le_rfl
  case built => exact hb.built i _ hi (blockClaims_iff.mpr ⟨idx, hr, rfl, hlt⟩)
  case others =>
    refine hb.others k fun i hi hclaims => ?_
    obtain ⟨idx, hr, hidx, hlt⟩ := blockClaims_iff.mp hclaims
    exact hk i idx hi hr hlt hidx

end Sys2Proof.Machine

/-! The proofs of the statements on the map and system commands (43_map_and_system.md). `MAPINIT` and `MAPGET` are the tests
of R93 and then one update of the state. -/

namespace Sys2Proof.Machine

section Maps

variable {s t : State}

/-- An accepted `MAPINIT` puts an empty map of `MAPSIZE` slots in force (R200). -/
theorem exec_mapinit_run (hf : s.fatal = false) (hn : s.mapsize.toNat ≤ s.config.mapMax) :
    exec .mapinit s = .next (((s.setCerr .ok).initMap s.mapsize).setVerdict .noVerdict) :=
  exec_run nofun hf nofun (decide_eq_false (Nat.not_lt.mpr hn))

/-- What `MAPGET` shows of a mapped slot (R201). -/
theorem commandBody_mapget_mapped {p : Slot} (h : t.slotAt t.opaIndex = some p) :
    commandBody .mapget t = .next (t.setResult p.blk (mappedWord p.src)) := by
  simp only [commandBody, h]

/-- What `MAPGET` shows of an unmapped slot (R201). -/
theorem commandBody_mapget_unmapped (h : t.slotAt t.opaIndex = none) :
    commandBody .mapget t = .next (t.setResult 0#32 0#32) := by
  simp only [commandBody, h]

/-- A `MAPGET` of a slot of the map is accepted (R201). -/
theorem exec_mapget_run (hf : s.fatal = false) (hm : s.mapv = true) (hlt : s.opa.toNat < s.nact.toNat) :
    exec .mapget s = commandBody .mapget (s.setCerr .ok) :=
  exec_run nofun hf (fun _ => hm) (decide_eq_false (Nat.not_le.mpr hlt))

end Maps

/-- Settles O51: the two tests that can refuse the command, and a new map that lists no slot. -/
theorem mapinitEmptiesMap : Obligations.MapinitEmptiesMap := by
  intro s
  refine ⟨fun hf => ?halted, fun hf hn => ?operand, fun hf hn => ⟨[], ?run, fun _ => rfl⟩⟩
  case halted => exact exec_halted nofun hf
  case operand => exact exec_operand hf nofun (decide_eq_true hn)
  case run => exact exec_mapinit_run hf hn

/-- Settles O52: the three tests that can refuse the command, and then the slot, mapped or not. -/
theorem mapgetReadsSlot : Obligations.MapgetReadsSlot := by
  intro s
  refine ⟨fun hf => ?halted, fun hf hm => ?nomap,
    fun m hf hm => ⟨fun hge => ?operand, fun p hlt hp => ?mapped, fun hlt hfree => ?unmapped⟩⟩
  case halted => exact exec_halted nofun hf
  case nomap => exact exec_nomap rfl hf (congrArg Option.isSome hm)
  case operand => exact exec_operand hf (fun _ => mapv_of_map hm) (decide_eq_true hge)
  case mapped =>
    obtain ⟨hsrc, hzero, hvalid⟩ := mappedWord_fields p.src
    refine ⟨mappedWord p.src, ?_, hvalid, hzero, hsrc⟩
    rw [exec_mapget_run hf (mapv_of_map hm) hlt]
    exact commandBody_mapget_mapped ((slotAt_of_map hm _).trans hp)
  case unmapped =>
    rw [exec_mapget_run hf (mapv_of_map hm) hlt]
    exact commandBody_mapget_unmapped ((slotAt_of_map hm _).trans hfree)

end Sys2Proof.Machine

/-! `SRST` (R202): what the registers read after the reset of the block (R50). -/

namespace Sys2Proof.Machine

/-- The number that names a register is its own (R24). -/
theorem eq_number_of_regOfNumber {r : Fin 64} {reg : Reg} (h : regOfNumber r = some reg) : r = reg.number := by
  have hall : ∀ r : Fin 64, ∀ reg ∈ regOfNumber r, r = reg.number := by decide
  exact hall r reg h

/-- No two registers share a number (R24). -/
theorem number_inj {reg reg' : Reg} : reg.number = reg'.number ↔ reg = reg' := by
  refine ⟨fun h => Option.some.inj ?_, congrArg Reg.number⟩
  rw [← regOfNumber_number reg, h, regOfNumber_number]

/-- `STATUS` reads 0 after a reset of the block: every field of it is 0 (R50, R202). -/
theorem statusWord_resetBlock (s : State) : s.resetBlock.statusWord = 0#32 := by
  have hreset : s.resetBlock.statusWord = State.reset.statusWord := rfl
  rw [hreset]
  decide

/-- After a reset of the block the current source is empty (R50). -/
theorem sourceLength_resetBlock (s : State) : s.resetBlock.sourceLength = 0 := by
  rw [sourceLength_eq, resetBlock_srclenHi, resetBlock_srclenLo]
  rfl

/-- Every register but `MAPSIZE` reads 0 after a reset of the block: its fields are 0, or it shows the geometry of the empty
source (R32, R50). -/
theorem readReg_resetBlock (s : State) (reg : Reg) :
    readReg s.resetBlock reg = if reg = .mapsize then 0x00003000#32 else 0#32 := by
  cases reg with
  | status => exact statusWord_resetBlock s
  | numblocks | spareorgLo | spareorgHi => rw [readReg, sourceLength_resetBlock]; decide
  | spa k | spb k => simp [readReg]
  | _ => rfl

/-- What the host reads by number after a reset of the block (R50). -/
theorem regRead_resetBlock (s : State) (r : Fin 64) :
    regRead s.resetBlock r = if r = 3 then 0x00003000#32 else 0#32 := by
  cases hr : regOfNumber r with
  | none =>
    have hne : r ≠ 3 := by rintro rfl; cases hr
    simp only [regRead, hr, if_neg hne]
  | some reg =>
    obtain rfl := eq_number_of_regOfNumber hr
    rw [regRead_number, readReg_resetBlock]
    exact if_congr (number_inj (reg' := .mapsize)).symm rfl rfl

/-- Settles O11: `SRST` has no test, and its effect is the reset of the block. -/
theorem srstResetsBlock : Obligations.SrstResetsBlock :=
  fun s => ⟨s.resetBlock, exec_srst s, regRead_resetBlock s, rfl, rfl, rfl, rfl, rfl, rfl, rfl, rfl, rfl, rfl, rfl, rfl⟩

end Sys2Proof.Machine

/-! The fatal state (60_exceptions.md). What a fatal condition leaves behind is one value, and each access of the host but the
two resets keeps it (R232). -/

namespace Sys2Proof.Machine

/-- What a fatal condition freezes until a reset: the cause, the verdict, the map and its size, the parses, the results, the
diagnostics (R232), and the requests made at the port (log entry 2). -/
structure FatalRecord where
  fatal : Bool
  fcause : FCause
  bres : BRes
  map : Option SlotMap
  nact : BitVec 17
  presA : BitVec 32
  presB : BitVec 32
  res : BitVec 32
  resh : BitVec 32
  diag : List DiagRecord
  portLog : List PortRequest

/-- The part of the state that a fatal condition freezes. -/
def State.fatalRecord (s : State) : FatalRecord where
  fatal := s.fatal
  fcause := s.fcause
  bres := s.bres
  map := s.map
  nact := s.nact
  presA := s.presA
  presB := s.presB
  res := s.res
  resh := s.resh
  diag := s.diag
  portLog := s.portLog

section Frozen

variable (s : State)

@[simp] theorem fatalRecord_setCerr (c : CErr) : (s.setCerr c).fatalRecord = s.fatalRecord := rfl
@[simp] theorem fatalRecord_setPending (rest : List Access) : (s.setPending rest).fatalRecord = s.fatalRecord := rfl
@[simp] theorem fatalRecord_addReply (v : Word) : (s.addReply v).fatalRecord = s.fatalRecord := rfl
@[simp] theorem fatalRecord_setSources (m : Memory) : (s.setSources m).fatalRecord = s.fatalRecord := rfl

/-- The host's registers are no part of it. -/
@[simp] theorem fatalRecord_writeReg (reg : Reg) (v : Word) : (writeReg s reg v).fatalRecord = s.fatalRecord := by
  cases reg <;> rfl

end Frozen

section Sticky

variable {s t : State}

/-- Two states with one record agree in each field of it. -/
theorem fatalRecord_eq_iff : t.fatalRecord = s.fatalRecord ↔
    t.fatal = s.fatal ∧ t.fcause = s.fcause ∧ t.bres = s.bres ∧ t.map = s.map ∧ t.nact = s.nact ∧
      t.presA = s.presA ∧ t.presB = s.presB ∧ t.res = s.res ∧ t.resh = s.resh ∧ t.diag = s.diag ∧
      t.portLog = s.portLog := by
  simp only [State.fatalRecord, FatalRecord.mk.injEq]

/-- In the fatal state a register write that does not issue `SRST` keeps the record: a command is refused as `HALTED`, and the
registers that the host may write are not frozen (R93, R232). -/
theorem regWrite_fatalRecord {r : Fin 64} {v : Word} (hf : s.fatal = true) (hsrst : r = 0 → v ≠ encode .srst)
    (h : regWrite r v s = .next t) : t.fatalRecord = s.fatalRecord := by
  rcases regWrite_cases r v s with ⟨hr, e⟩ | ⟨reg, -, -, e⟩ | ⟨-, e⟩ <;> rw [e] at h
  · rw [issue_halted hf (hsrst hr)] at h
    cases h; exact fatalRecord_setCerr s _
  · cases h; exact fatalRecord_writeReg s reg v
  · cases h; rfl

/-- In the fatal state every access but the two resets keeps the record (R232). -/
theorem perform_fatalRecord {a : Access} (hf : s.fatal = true) (hreset : a ≠ .reset)
    (hsrst : a ≠ .write 0 (encode .srst)) (h : perform a s = .next t) : t.fatalRecord = s.fatalRecord := by
  cases a with
  | read r => cases h; exact fatalRecord_addReply s _
  | write r v => exact regWrite_fatalRecord hf (fun hr hv => hsrst (by rw [hr, hv])) h
  | reset => exact absurd rfl hreset
  | serve src off byte => cases h; exact fatalRecord_setSources s _

/-- In the fatal state every step but the two resets keeps the record, the idle step included (R232). -/
theorem step_fatalRecord (hf : s.fatal = true) (hreset : ∀ rest, s.pending ≠ .reset :: rest)
    (hsrst : ∀ rest, s.pending ≠ .write 0 (encode .srst) :: rest) (h : step s = .next t) :
    t.fatalRecord = s.fatalRecord := by
  cases hp : s.pending with
  | nil => rw [step_idle hp] at h; cases h; rfl
  | cons a rest =>
    rw [step_eq_perform hp] at h
    have ha : a ≠ .reset := by rintro rfl; exact hreset rest hp
    have ha' : a ≠ .write 0 (encode .srst) := by rintro rfl; exact hsrst rest hp
    exact (perform_fatalRecord (s := s.setPending rest) hf ha ha' h).trans (fatalRecord_setPending s rest)

end Sticky

/-- Settles O7: the excluded word is the encoder's word of `SRST`, and every other step keeps the record, `FATAL` in it. -/
theorem fatalStateIsSticky : Obligations.FatalStateIsSticky := by
  intro s t h hf hreset hsrst
  obtain ⟨hfatal, hframe⟩ := fatalRecord_eq_iff.mp (step_fatalRecord hf hreset hsrst h)
  exact ⟨hfatal.trans hf, hframe⟩

end Sys2Proof.Machine

/-! The proofs of the statements on reset and hazards (70_reset_and_hazards.md). The two resets are one update of the state
(R260), and the state after reset (R50) is the one it leaves as it is, so both read as a reset of the block. -/

namespace Sys2Proof.Machine

/-- A reset of the block changes nothing right after a reset (R50, R260). -/
theorem resetBlock_reset : State.reset.resetBlock = State.reset := rfl

/-- What the host reads by number in the state after reset (R50, R261). -/
theorem regRead_reset (r : Fin 64) : regRead State.reset r = if r = 3 then 0x00003000#32 else 0#32 := by
  rw [← regRead_resetBlock State.reset r, resetBlock_reset]

/-- The hardware reset is the reset of the block (R260). -/
theorem perform_reset (s : State) : perform .reset s = .next s.resetBlock := rfl

/-- Settles O12: both resets are the reset of the block, and what a register reads after it depends on no state. -/
theorem hardwareResetIsSrst : Obligations.HardwareResetIsSrst :=
  fun s => ⟨s.resetBlock, perform_reset s, exec_srst s, fun r => (regRead_resetBlock s r).trans (regRead_reset r).symm⟩

/-- Settles O13: the reads are those after a reset of the block; the rest are fields of the reset state. -/
theorem resetRegisterValues : Obligations.ResetRegisterValues :=
  ⟨regRead_reset, rfl, rfl, rfl⟩

end Sys2Proof.Machine

/-! The silent port (U6, R276): the command that reads ends in the first read of its first block. -/

namespace Sys2Proof.Machine

section Silent

variable {s : State}

/-- A read at a port whose next answer is silence gets none (U6). -/
theorem portRead_of_silent (h : s.portAnswers.head? = some .silent) (src : BitVec 16) (off : Nat) :
    s.portRead src off = .silent := by
  rw [portRead_silent_iff, List.headD_eq_head?_getD, h]
  rfl

/-- The read of copy A stops `loadsp`, wherever the cursor stands (R69, log entry 5). -/
theorem loadsp_of_silent (h : s.portAnswers.head? = some .silent) : loadsp s = .fault .portSilent := by
  simp only [loadsp, portRead_of_silent h]

/-- A block that cannot be loaded is not claimed for (R165). -/
theorem scanBlock_of_silent (h : s.portAnswers.head? = some .silent) (v : BitVec 1) :
    scanBlock v s = .fault .portSilent := by
  rw [scanBlock, loadsp_of_silent h]
  rfl

/-- The loop of `SRCSCAN` stops in its first turn, if it makes one (R168). -/
theorem scanBlocks_of_silent (h : s.portAnswers.head? = some .silent) (v : BitVec 1) {n : Nat} (hn : n ≠ 0) :
    scanBlocks v n s = .fault .portSilent := by
  obtain ⟨k, rfl⟩ := Nat.exists_eq_succ_of_ne_zero hn
  rw [scanBlocks_succ, scanBlock_of_silent h]
  rfl

end Silent

/-- Settles O36: acceptance leaves the port's answers as they are, and a source that holds the block under the cursor has a
first block for `SRCSCAN` to read. -/
theorem silentPortStops : Obligations.SilentPortStops := by
  intro s hf hcur hsilent
  have hblocks : numBlocks s.sourceLength ≠ 0 := Nat.ne_zero_of_lt hcur
  refine ⟨?loadsp, fun hm => ⟨?blkscan, ?srcscan⟩⟩
  case loadsp => rw [exec_loadsp_run hf hcur, loadsp_of_silent (s := s.setCerr .ok) hsilent]
  case blkscan => rw [exec_blkscan_run hf hm hcur, scanBlock_of_silent (s := s.setCerr .ok) hsilent]
  case srcscan => rw [exec_srcscan_run hf hm, scanBlocks_of_silent (s := s.scanStart) hsilent s.cfg hblocks]

end Sys2Proof.Machine
